-- ==== Sys2Proof/Word.lean ====
section
/-! DEFINITION. The plain number types of the model: the byte of a frame, the 29-bit frame identifier,
and the timer as a due time. Every measured or computed quantity of the part is an integer in a fixed
unit (00_scope, Units), so those are `Nat` or `Int` and not bit vectors. -/
namespace Sys2Proof

/-- One byte of a frame's data field (R186, R194). -/
abbrev Byte := BitVec 8

/-- The 29-bit identifier of a frame (R186). -/
abbrev Ident := BitVec 29

/-- A timer of a block: absent while it is stopped, else the time in ms at which it expires. -/
abbrev Timer := Option Nat

end Sys2Proof
end

