-- ==== Sys2Proof/Syntax.lean ====
section
/-! DEFINITION. The names the manual gives to the parts of the machine, the tables indexed by them, and
`Instr`: one constructor for each step of the part that spec/opcode_table.json lists. A command carries
only what comes from outside the part with it: the counts a sample reads, the coil conditions a check
senses, the frame received, and which link, row or zone it concerns. -/
namespace Sys2Proof

/-! ## Names -/

/-- The two links (00_scope, The part in the vehicle). -/
inductive Link where
  | chassis
  | body
deriving DecidableEq, Repr

/-- The position of a channel within H1 to H8 or P1 to P8. -/
inductive Idx8 where
  | n1 | n2 | n3 | n4 | n5 | n6 | n7 | n8
deriving DecidableEq, Repr

/-- The four axles. -/
inductive Axle where
  | a1 | a2 | a3 | a4
deriving DecidableEq, Repr

/-- The eight corners, in fixed corner order (R2). -/
inductive Corner where
  | a1L | a1R | a2L | a2R | a3L | a3R | a4L | a4R
deriving DecidableEq, Repr

/-- The two kneel zones (R2). -/
inductive Zone where
  | front
  | rear
deriving DecidableEq, Repr

/-- The 31 measurement channels (00_scope, Measurement channels). -/
inductive Chan where
  | h (i : Idx8)
  | p (i : Idx8)
  | b (a : Axle)
  | r3 | r4 | j | s | t | g | v
  | d1 | d2 | d3 | d4
deriving DecidableEq, Repr

/-! ## Tables indexed by those names -/

/-- One value for each of H1 to H8 or P1 to P8. -/
structure PerIdx (α : Type) where
  n1 : α
  n2 : α
  n3 : α
  n4 : α
  n5 : α
  n6 : α
  n7 : α
  n8 : α
deriving DecidableEq, Repr

/-- One value for each axle. -/
structure PerAxle (α : Type) where
  a1 : α
  a2 : α
  a3 : α
  a4 : α
deriving DecidableEq, Repr

/-- One value for each corner. -/
structure PerCorner (α : Type) where
  a1L : α
  a1R : α
  a2L : α
  a2R : α
  a3L : α
  a3R : α
  a4L : α
  a4R : α
deriving DecidableEq, Repr

/-- One value for each measurement channel. -/
structure PerChan (α : Type) where
  h : PerIdx α
  p : PerIdx α
  b : PerAxle α
  r3 : α
  r4 : α
  j : α
  s : α
  t : α
  g : α
  v : α
  d1 : α
  d2 : α
  d3 : α
  d4 : α
deriving DecidableEq, Repr

def PerIdx.get {α : Type} (t : PerIdx α) : Idx8 → α
  | .n1 => t.n1 | .n2 => t.n2 | .n3 => t.n3 | .n4 => t.n4
  | .n5 => t.n5 | .n6 => t.n6 | .n7 => t.n7 | .n8 => t.n8

def PerIdx.set {α : Type} (t : PerIdx α) (i : Idx8) (x : α) : PerIdx α :=
  match i with
  | .n1 => { t with n1 := x } | .n2 => { t with n2 := x } | .n3 => { t with n3 := x } | .n4 => { t with n4 := x }
  | .n5 => { t with n5 := x } | .n6 => { t with n6 := x } | .n7 => { t with n7 := x } | .n8 => { t with n8 := x }

def PerIdx.make {α : Type} (f : Idx8 → α) : PerIdx α :=
  ⟨f .n1, f .n2, f .n3, f .n4, f .n5, f .n6, f .n7, f .n8⟩

def PerAxle.get {α : Type} (t : PerAxle α) : Axle → α
  | .a1 => t.a1 | .a2 => t.a2 | .a3 => t.a3 | .a4 => t.a4

def PerAxle.set {α : Type} (t : PerAxle α) (a : Axle) (x : α) : PerAxle α :=
  match a with
  | .a1 => { t with a1 := x } | .a2 => { t with a2 := x } | .a3 => { t with a3 := x } | .a4 => { t with a4 := x }

def PerAxle.make {α : Type} (f : Axle → α) : PerAxle α := ⟨f .a1, f .a2, f .a3, f .a4⟩

def PerCorner.get {α : Type} (t : PerCorner α) : Corner → α
  | .a1L => t.a1L | .a1R => t.a1R | .a2L => t.a2L | .a2R => t.a2R
  | .a3L => t.a3L | .a3R => t.a3R | .a4L => t.a4L | .a4R => t.a4R

def PerCorner.set {α : Type} (t : PerCorner α) (k : Corner) (x : α) : PerCorner α :=
  match k with
  | .a1L => { t with a1L := x } | .a1R => { t with a1R := x } | .a2L => { t with a2L := x } | .a2R => { t with a2R := x }
  | .a3L => { t with a3L := x } | .a3R => { t with a3R := x } | .a4L => { t with a4L := x } | .a4R => { t with a4R := x }

def PerCorner.make {α : Type} (f : Corner → α) : PerCorner α :=
  ⟨f .a1L, f .a1R, f .a2L, f .a2R, f .a3L, f .a3R, f .a4L, f .a4R⟩

def PerChan.get {α : Type} (t : PerChan α) : Chan → α
  | .h i => t.h.get i | .p i => t.p.get i | .b a => t.b.get a
  | .r3 => t.r3 | .r4 => t.r4 | .j => t.j | .s => t.s | .t => t.t | .g => t.g | .v => t.v
  | .d1 => t.d1 | .d2 => t.d2 | .d3 => t.d3 | .d4 => t.d4

def PerChan.set {α : Type} (t : PerChan α) (c : Chan) (x : α) : PerChan α :=
  match c with
  | .h i => { t with h := t.h.set i x } | .p i => { t with p := t.p.set i x } | .b a => { t with b := t.b.set a x }
  | .r3 => { t with r3 := x } | .r4 => { t with r4 := x } | .j => { t with j := x } | .s => { t with s := x }
  | .t => { t with t := x } | .g => { t with g := x } | .v => { t with v := x }
  | .d1 => { t with d1 := x } | .d2 => { t with d2 := x } | .d3 => { t with d3 := x } | .d4 => { t with d4 := x }

def PerChan.make {α : Type} (f : Chan → α) : PerChan α :=
  ⟨.make fun i => f (.h i), .make fun i => f (.p i), .make fun a => f (.b a),
    f .r3, f .r4, f .j, f .s, f .t, f .g, f .v, f .d1, f .d2, f .d3, f .d4⟩

/-! ## What arrives from outside with a command -/

/-- What a coil check finds at one coil, and the coil condition a record keeps (R18). -/
inductive Coil where
  | ok
  | opened
  | shorted
deriving DecidableEq, Repr

/-- What one coil check finds at every coil it checks: one coil for each of M1 to M4 and for TL, two for
each corner valve pair C1 to C8 (in fixed corner order; the coil that fills, then the coil that exhausts) and two for each
of DP and DN (R18). -/
structure CoilSenses where
  m : PerAxle Coil
  c : PerCorner (Coil × Coil)
  dp : Coil × Coil
  dn : Coil × Coil
  tl : Coil
deriving DecidableEq, Repr

/-- A frame on a link: its identifier and its data field (R186). -/
structure BusFrame where
  ident : Ident
  data : List Byte
deriving DecidableEq, Repr

/-! ## The commands -/

/-- The steps of the part, one constructor for each row of spec/opcode_table.json, in the table's order. -/
inductive Instr where
  /-- MEASUREMENT_SAMPLE (R3): the count each measurement channel reads. -/
  | measurementSample (raw : PerChan Nat)
  /-- MOTION_FRAME (R12): the motion frame in the chassis link's buffers is taken. -/
  | motionFrame
  /-- STALE_EXPIRY (R13). -/
  | staleExpiry
  /-- DEMAND_LOST_EXPIRY (R13). -/
  | demandLostExpiry
  /-- COIL_CHECK (R18): what the check finds at each coil. -/
  | coilCheck (found : CoilSenses)
  /-- BRAKE_PERIOD (R107). -/
  | brakePeriod
  /-- ESTABLISHMENT_TIMEOUT (R94). -/
  | establishmentTimeout
  /-- CREEP_TIMER_EXPIRY (R97). -/
  | creepTimerExpiry
  /-- LEVELLING_PERIOD (R126). -/
  | levellingPeriod
  /-- ARTICULATION_PERIOD (R160). -/
  | articulationPeriod
  /-- LEASE_EXPIRY (R24): of the participant of a PT row, 1 to 16. -/
  | leaseExpiry (row : Nat)
  /-- ROLL_CALL_WINDOW_EXPIRY (R42). -/
  | rollCallWindowExpiry
  /-- REPORT_GAP_EXPIRY (R63): of the report context of a PT row, 1 to 16. -/
  | reportGapExpiry (row : Nat)
  /-- RECEIVE_FRAME (R187): a frame received without error on a link. -/
  | receiveFrame (l : Link) (f : BusFrame)
  /-- ASSERT (R53): the oldest request waiting on the link is an ASSERT and is taken. -/
  | assert (l : Link)
  /-- AMEND (R56). -/
  | amend (l : Link)
  /-- RELEASE (R57). -/
  | release (l : Link)
  /-- RELEASE_ALL (R58). -/
  | releaseAll (l : Link)
  /-- LOOKUP (R59). -/
  | lookup (l : Link)
  /-- LIST (R60). -/
  | list (l : Link)
  /-- LIST_FRAME (R61): the next frame of the LIST reply in progress on the link. -/
  | listFrame (l : Link)
  /-- REPORT_BEGIN (R62). -/
  | reportBegin (l : Link)
  /-- REPORT_ENTRY (R63). -/
  | reportEntry (l : Link)
  /-- OVERRIDE form (a) (R67). -/
  | overrideOrphan (l : Link)
  /-- OVERRIDE form (b) (R68). -/
  | overrideZone (l : Link)
  /-- OVERRIDE form (c) (R69). -/
  | overrideRollCall (l : Link)
  /-- OVERRIDE form (d) (R70). -/
  | overrideAcknowledge (l : Link)
  /-- PRESENCE (R71). -/
  | presence (l : Link)
  /-- SET_RIDE_LEVEL (R72). -/
  | setRideLevel (l : Link)
  /-- CONFIG_WRITE (R195). -/
  | configWrite (l : Link)
  /-- CONFIG_DISCARD (R195). -/
  | configDiscard (l : Link)
  /-- CONFIG_COMMIT (R196). -/
  | configCommit (l : Link)
  /-- BANK_WRITE_COMPLETE (R197). -/
  | bankWriteComplete
  /-- RESTART (R198). -/
  | restart (l : Link)
  /-- COMMANDED_RESET (R184): whether the supply is at or above 9.5 V at that moment. -/
  | commandedReset (supplyGood : Bool)
  /-- DIAGNOSTIC_QUERY (R199). -/
  | diagnosticQuery (l : Link)
  /-- RESTRAINT_RECOMPUTE (R74). -/
  | restraintRecompute
  /-- RESTRAINT_REPEAT (R83). -/
  | restraintRepeat
  /-- HOLD_FAULT_TIMER_EXPIRY (R86). -/
  | holdFaultTimerExpiry
  /-- HOLD_REQUESTED_CHANGE (R90): the SHC takes the oldest change of hold requested handed to it. -/
  | holdRequestedChange
  /-- ZONE_RESTRAINT_UPDATE (R145): a zone takes the oldest change of its depth or keep low handed to it. -/
  | zoneRestraintUpdate (z : Zone)
  /-- LEVEL_FREEZE_CHANGE (R135): the LU takes the oldest change of level freeze handed to it. -/
  | levelFreezeChange
  /-- LOWERING_TIMER_EXPIRY (R149). -/
  | loweringTimerExpiry (z : Zone)
  /-- RISING_TIMER_EXPIRY (R153). -/
  | risingTimerExpiry (z : Zone)
  /-- RESTORE_TIMER_EXPIRY (R176). -/
  | restoreTimerExpiry
  /-- SUPPLY_DIP (R182): the supply falls below 9.0 V. -/
  | supplyDip
  /-- LEAVE_RESET (R185). -/
  | leaveReset
  /-- FRAME_TRANSMITTED (R190): the controller's frame has been sent without error. -/
  | frameTransmitted (l : Link)
  /-- STATUS_PAGE_TIMER (R191). -/
  | statusPageTimer
  /-- TRANSMIT_ERROR (R192). -/
  | transmitError (l : Link)
  /-- RECEIVE_ERROR (R192). -/
  | receiveError (l : Link)
  /-- BUS_OFF_RECOVERY (R193). -/
  | busOffRecovery (l : Link)
  /-- SUPPLY_RISE (R182): the supply rises to 9.5 V. -/
  | supplyRise
  /-- LOGIC_STATE_LOSS (R183): the supply falls below 5.0 V or is lost. -/
  | logicStateLoss
  /-- TAG_CENTRE_PUBLICATION (R167): the AU acts on a published change of tag centre. -/
  | tagCentrePublication
deriving DecidableEq, Repr

end Sys2Proof
end

