-- ==== Sys2Proof/Config.lean ====
section
/-! DEFINITION. The free values of the model: constants with no body, so that no proof can rest on what they
are. Each stands where the manual says that either outcome stands, or where only the bus decides. The model
applies the first four to a counter of draws in State, so that each use is a fresh value. -/
namespace Sys2Proof

/-- Which of two reactions that meet at one moment is taken first, at the n-th such draw: the manual says
either order stands (R33, R50, R135, R180). Log entry 4. -/
opaque Config.firstTakenFirst : Nat → Bool

/-- Which condition a check records when one coil of a channel reads open and its other coil reads short, at
the n-th such draw: true for OPEN. R18 records "the condition sensed" and does not say which of two.
Log entry 5. -/
opaque Config.openRecorded : Nat → Bool

/-- Which of the inputs that changed at one moment the restraint resolver takes next, at the n-th such draw: R74 has each
recomputed by itself, in either order. Log entry 8. -/
opaque Config.inputTaken : Nat → Nat

/-- In which order the changes of one moment on which a grant turns reach the request handler, at the n-th such draw: R33 has
each examined by itself, and either order stands. Log entry 4. -/
opaque Config.orderTaken : Nat → Nat

/-- How many occurrences of 11 consecutive recessive bits end on the bus of a link in the ms that ends at a time. They
are the bus's, not the part's (R193). Log entry 27. -/
opaque Config.recessiveRuns : Link → Nat → Nat

/-- Whether the supply falls below 9.5 V, and not below 9.0 V, in the ms that begins at a time. The manual has it interrupt
the 20 ms test (R182), and the table has no row for it. Log entry 28. -/
opaque Config.supplySags : Nat → Bool

/-- Whether the bus of a link is free for the controller to offer a waiting frame at a time in ms. The moment
is the bus's, not the part's (R190). Log entry 6. -/
opaque Config.busFree : Link → Nat → Bool

end Sys2Proof
end

