-- ==== Sys2Proof/Machine/Arith.lean ====
section
/-! DEFINITION. The arithmetic of the manual's computations: the rounded division of R1, clamping, saturating
counts, and the table reading of R161. -/
namespace Sys2Proof.Machine

/-- R1: division to the nearest integer, halves away from zero. -/
def rdiv (n : Int) (d : Nat) : Int :=
  let q : Nat := (2 * n.natAbs + d) / (2 * d)
  if n < 0 then -(q : Int) else (q : Int)

/-- R1 for figures that are never negative. -/
def rdivN (n d : Nat) : Nat := (2 * n + d) / (2 * d)

/-- A figure held within a lower and an upper bound. -/
def clampInt (lo hi x : Int) : Int := if x < lo then lo else if hi < x then hi else x

/-- The size of a figure. -/
def absN (x : Int) : Nat := x.natAbs

/-- A count that stays at its greatest figure. -/
def satSucc (top n : Nat) : Nat := if n < top then n + 1 else top

/-- `tableFrom v0 y0 rest v`: the reading at v, with (v0, y0) the breakpoint at or below v that was passed
last and `rest` the breakpoints above it. -/
def tableFrom (v0 : Nat) (y0 : Int) : List (Nat × Int) → Nat → Int
  | [], _ => y0
  | (v1, y1) :: rest, v =>
    if v < v1 then y0 + rdiv (((v : Int) - v0) * (y1 - y0)) (v1 - v0)
    else tableFrom v1 y1 rest v

/-- R161: a tuning table read at a speed by linear interpolation, the term rounded before it is added; a speed
beyond the last breakpoint reads the last figure. -/
def readTable : List (Nat × Int) → Nat → Int
  | [], _ => 0
  | (v0, y0) :: rest, v => tableFrom v0 y0 rest v

end Sys2Proof.Machine
end

