-- ==== Sys2Proof/Machine/Params.lean ====
section
/-! DEFINITION. The stored configuration (11.6): its parameters as the blocks read them, the delivered
configuration, the numbering of the parameters by index, and reading and writing one parameter as the number
the store keeps for it. -/
namespace Sys2Proof.Machine

/-! ## The parameters -/

/-- The constants of one axle, group A records 1 to 4 (6.2). -/
structure AxleConst where
  area : Nat
  unsprung : Nat
  factor : Nat
  threshold : Nat
  substitute : Nat
deriving DecidableEq, Repr

/-- The calibration of one measurement channel, group B records 1 to 31 (1.1). -/
structure Calib where
  fitted : Bool
  scale : Int
  offset : Nat
  trim : Nat
  gainOn : Bool
deriving DecidableEq, Repr

/-- One row of the corner map, group B records 41 to 48 (R11). -/
structure MapRow where
  height : Idx8
  pressure : Idx8
deriving DecidableEq, Repr

/-- The role of a participant (2.1). -/
inductive Role where
  | doorNode
  | rampNode
  | driverConsole
  | vehicleComputer
  | serviceTool
deriving DecidableEq, Repr

/-- The configured fields of one PT row, group C records 1 to 16 (2.1). -/
structure PtCfg where
  inUse : Bool
  link : Link
  node : Nat
  role : Role
  door : Option Nat
  lease : Nat
  expected : Bool
deriving DecidableEq, Repr

/-- The message types an acceptance filter may name (11.2). -/
inductive FilterType where
  | motion
  | request
deriving DecidableEq, Repr

/-- One acceptance filter, group C records 21 to 28 and 31 to 38 (11.2). -/
structure Filter where
  inUse : Bool
  type : FilterType
  low : Nat
  high : Nat
deriving DecidableEq, Repr

/-- The supply trip point and the comparator figures, group C record 50 (10.1, 10.2). -/
structure Thresholds where
  trip : Nat
  holdFall : Nat
  holdRise : Nat
  fillFall : Nat
  fillRise : Nat
  riseFall : Nat
  riseRise : Nat
deriving DecidableEq, Repr

/-- A whole configuration (R195 to R197). -/
structure Params where
  pMax : Nat
  aMax : Nat
  lock : Bool
  axles : PerAxle AxleConst
  calib : PerChan Calib
  cornerMap : PerCorner MapRow
  /-- PT rows 1 to 16, in row order. -/
  pt : List PtCfg
  /-- Filters 1 to 8 of the chassis link. -/
  chassisFilters : List Filter
  /-- Filters 1 to 8 of the body link. -/
  bodyFilters : List Filter
  /-- The figures at 0, 10, 20, 40, 60 and 80 km/h. -/
  baseDamping : List Int
  jointLimit : List Int
  /-- The figures at 0, 15, 30 and 40 km/h. -/
  tagGain : List Int
  thr : Thresholds
deriving DecidableEq, Repr

/-- The breakpoint speeds of the damping and limit tables; they are fixed (9.2, 11.6). -/
def jointBreakpoints : List Nat := [0, 100, 200, 400, 600, 800]
/-- The breakpoint speeds of the gain table. -/
def gainBreakpoints : List Nat := [0, 150, 300, 400]

/-- PT row n, 1 to 16. -/
def Params.row (p : Params) (n : Nat) : Option PtCfg := if n = 0 then none else p.pt[n - 1]?

/-- The filters of a link. -/
def Params.filters (p : Params) : Link → List Filter
  | .chassis => p.chassisFilters
  | .body => p.bodyFilters

/-! ## The channel ranges and the delivered configuration -/

/-- The channel range (1.1). -/
def chanRange : Chan → Int × Int
  | .h _ => (-120, 100)
  | .p _ => (0, 1250)
  | .b _ => (0, 1250)
  | .r3 => (0, 1250)
  | .r4 => (0, 1250)
  | .j => (-550, 550)
  | .s => (-500, 500)
  | .t => (-150, 150)
  | .g => (-200, 200)
  | .v => (0, 400)
  | .d1 => (0, 1000)
  | .d2 => (0, 1000)
  | .d3 => (0, 1000)
  | .d4 => (0, 1000)

/-- A fitted channel with the default gain trim, off (1.1). -/
def calibOf (scale : Int) (offset : Nat) : Calib :=
  { fitted := true, scale := scale, offset := offset, trim := 1000, gainOn := false }

/-- The default calibration of each group of channels (1.1). -/
def defaultCalib : Chan → Calib
  | .h _ => calibOf 240 2276
  | .p _ => calibOf 1365 205
  | .b _ => calibOf 1365 205
  | .r3 => calibOf 1365 205
  | .r4 => calibOf 1365 205
  | .j => calibOf 1200 2048
  | .s => calibOf 1100 2048
  | .t => calibOf 330 2048
  | .g => calibOf 440 2048
  | .v => calibOf 410 0
  | .d1 => calibOf (-1100) 3929
  | .d2 => calibOf (-1100) 3929
  | .d3 => calibOf (-1100) 3929
  | .d4 => calibOf (-1100) 3929

/-- The default corner map: corner n takes Hn and Pn (R11). -/
def defaultMap : Corner → MapRow
  | .a1L => ⟨.n1, .n1⟩
  | .a1R => ⟨.n2, .n2⟩
  | .a2L => ⟨.n3, .n3⟩
  | .a2R => ⟨.n4, .n4⟩
  | .a3L => ⟨.n5, .n5⟩
  | .a3R => ⟨.n6, .n6⟩
  | .a4L => ⟨.n7, .n7⟩
  | .a4R => ⟨.n8, .n8⟩

/-- A PT row not in use. DESIGN CHOICE: the manual gives no other field of such a row (log entry 9). -/
def unusedRow : PtCfg :=
  { inUse := false, link := .chassis, node := 1, role := .serviceTool, door := none, lease := 500, expected := false }

/-- A filter not in use. DESIGN CHOICE: the manual gives no other field of it (log entry 9). -/
def unusedFilter : Filter := { inUse := false, type := .request, low := 1, high := 127 }

/-- The PT as delivered (2.1). -/
def deliveredPt : List PtCfg :=
  [ ⟨true, .chassis, 10, .vehicleComputer, none, 500, false⟩,
    ⟨true, .chassis, 60, .serviceTool, none, 2000, false⟩,
    ⟨true, .body, 21, .doorNode, some 1, 500, true⟩,
    ⟨true, .body, 22, .doorNode, some 2, 500, true⟩,
    ⟨true, .body, 23, .doorNode, some 3, 500, true⟩,
    ⟨true, .body, 24, .doorNode, some 4, 500, true⟩,
    ⟨true, .body, 30, .rampNode, none, 500, true⟩,
    ⟨true, .body, 40, .driverConsole, none, 500, false⟩,
    unusedRow, unusedRow, unusedRow, unusedRow, unusedRow, unusedRow, unusedRow, unusedRow ]

/-- The configuration as delivered: every figure at the default its table gives. -/
def delivered : Params :=
  { pMax := 850
    aMax := 600
    lock := false
    axles := ⟨⟨500, 900, 38, 30, 6500⟩, ⟨600, 1100, 45, 30, 7000⟩, ⟨600, 1300, 45, 30, 8000⟩, ⟨500, 700, 30, 30, 4000⟩⟩
    calib := .make defaultCalib
    cornerMap := .make defaultMap
    pt := deliveredPt
    chassisFilters :=
      [⟨true, .motion, 10, 10⟩, ⟨true, .request, 1, 127⟩, unusedFilter, unusedFilter, unusedFilter, unusedFilter,
        unusedFilter, unusedFilter]
    bodyFilters :=
      [⟨true, .request, 1, 127⟩, unusedFilter, unusedFilter, unusedFilter, unusedFilter, unusedFilter, unusedFilter,
        unusedFilter]
    baseDamping := [200, 300, 450, 600, 750, 850]
    jointLimit := [530, 450, 300, 150, 80, 80]
    tagGain := [300, 300, 150, 0]
    thr :=
      { trip := 175, holdFall := 550, holdRise := 600, fillFall := 650, fillRise := 700, riseFall := 750, riseRise := 800 } }

/-! ## Codes of the store

A value is a number for figures, 1 or 0 for yes or no, and the list code for a named value (11.6): codes count
from 1 in the order the manual lists the values (R194). Code 0 means absent. -/

def codeOfBool (b : Bool) : Int := if b then 1 else 0

/-- "link: BODY or CHASSIS" (2.1) lists BODY first. -/
def codeOfLink : Link → Int
  | .body => 1
  | .chassis => 2

def linkOfCode (v : Int) : Link := if v = 1 then .body else .chassis

def codeOfRole : Role → Int
  | .doorNode => 1
  | .rampNode => 2
  | .driverConsole => 3
  | .vehicleComputer => 4
  | .serviceTool => 5

def roleOfCode (v : Int) : Role :=
  if v = 1 then .doorNode else if v = 2 then .rampNode else if v = 3 then .driverConsole
  else if v = 4 then .vehicleComputer else .serviceTool

def codeOfFilterType : FilterType → Int
  | .motion => 1
  | .request => 2

def filterTypeOfCode (v : Int) : FilterType := if v = 1 then .motion else .request

def codeOfIdx8 : Idx8 → Int
  | .n1 => 1 | .n2 => 2 | .n3 => 3 | .n4 => 4 | .n5 => 5 | .n6 => 6 | .n7 => 7 | .n8 => 8

def idx8OfCode (v : Int) : Idx8 :=
  if v = 1 then .n1 else if v = 2 then .n2 else if v = 3 then .n3 else if v = 4 then .n4
  else if v = 5 then .n5 else if v = 6 then .n6 else if v = 7 then .n7 else .n8

def codeOfDoor : Option Nat → Int
  | none => 0
  | some d => d

def doorOfCode (v : Int) : Option Nat := if v ≤ 0 then none else some v.toNat

/-! ## Numbering -/

/-- The measurement channels in table order: channel 1 is H1, channel 31 is D4 (R199). -/
def allChans : List Chan :=
  [.h .n1, .h .n2, .h .n3, .h .n4, .h .n5, .h .n6, .h .n7, .h .n8,
   .p .n1, .p .n2, .p .n3, .p .n4, .p .n5, .p .n6, .p .n7, .p .n8,
   .b .a1, .b .a2, .b .a3, .b .a4, .r3, .r4, .j, .s, .t, .g, .v, .d1, .d2, .d3, .d4]

/-- Fixed corner order (R2). -/
def allCorners : List Corner := [.a1L, .a1R, .a2L, .a2R, .a3L, .a3R, .a4L, .a4R]

def allAxles : List Axle := [.a1, .a2, .a3, .a4]

/-- Measurement channel n, 1 to 31. -/
def chanOfNumber (n : Nat) : Option Chan := if n = 0 then none else allChans[n - 1]?

/-- The parameter index of a field: bits 12 to 15 the group, 6 to 11 the record, 0 to 5 the field (11.6). -/
def paramIndex (group record field : Nat) : Nat := group * 4096 + record * 64 + field

/-- The indexes of `fields` fields of each of `count` records from `first`. -/
def recordIndexes (group first count fields : Nat) : List Nat :=
  (List.range' first count).flatMap fun r => (List.range' 1 fields).map fun f => paramIndex group r f

/-- Every parameter index, ascending (11.6). -/
def allIndexes : List Nat :=
  recordIndexes 1 0 1 3 ++ recordIndexes 1 1 4 5 ++
  recordIndexes 2 1 31 5 ++ recordIndexes 2 41 8 2 ++
  recordIndexes 3 1 16 7 ++ recordIndexes 3 21 8 4 ++ recordIndexes 3 31 8 4 ++
  recordIndexes 3 40 2 6 ++ recordIndexes 3 42 1 4 ++ recordIndexes 3 50 1 7

def groupOf (index : Nat) : Nat := index / 4096
def recordOf (index : Nat) : Nat := index / 64 % 64
def fieldOf (index : Nat) : Nat := index % 64

/-! ## One parameter as the store's number -/

def axleField (a : AxleConst) : Nat → Option Int
  | 1 => some a.area
  | 2 => some a.unsprung
  | 3 => some a.factor
  | 4 => some a.threshold
  | 5 => some a.substitute
  | _ => none

def calibField (c : Calib) : Nat → Option Int
  | 1 => some (codeOfBool c.fitted)
  | 2 => some c.scale
  | 3 => some c.offset
  | 4 => some c.trim
  | 5 => some (codeOfBool c.gainOn)
  | _ => none

def mapField (m : MapRow) : Nat → Option Int
  | 1 => some (codeOfIdx8 m.height)
  | 2 => some (codeOfIdx8 m.pressure)
  | _ => none

def ptField (r : PtCfg) : Nat → Option Int
  | 1 => some (codeOfBool r.inUse)
  | 2 => some (codeOfLink r.link)
  | 3 => some r.node
  | 4 => some (codeOfRole r.role)
  | 5 => some (codeOfDoor r.door)
  | 6 => some r.lease
  | 7 => some (codeOfBool r.expected)
  | _ => none

def filterField (f : Filter) : Nat → Option Int
  | 1 => some (codeOfBool f.inUse)
  | 2 => some (codeOfFilterType f.type)
  | 3 => some f.low
  | 4 => some f.high
  | _ => none

def thrField (t : Thresholds) : Nat → Option Int
  | 1 => some t.trip
  | 2 => some t.holdFall
  | 3 => some t.holdRise
  | 4 => some t.fillFall
  | 5 => some t.fillRise
  | 6 => some t.riseFall
  | 7 => some t.riseRise
  | _ => none

/-- Item n of a list, counting from 1. -/
def nth {α : Type} (l : List α) (n : Nat) : Option α := if n = 0 then none else l[n - 1]?

/-- Item n of a list, counting from 1, replaced. -/
def setNth {α : Type} (l : List α) (n : Nat) (f : α → α) : List α := if n = 0 then l else l.modify (n - 1) f

def axleOfNumber (n : Nat) : Option Axle := nth allAxles n
def cornerOfNumber (n : Nat) : Option Corner := nth allCorners n

/-- The value in a configuration of the parameter an index names; none when it names none. -/
def Params.value (p : Params) (index : Nat) : Option Int :=
  let r := recordOf index
  let f := fieldOf index
  match groupOf index with
  | 1 =>
    if r = 0 then
      match f with
      | 1 => some p.pMax
      | 2 => some p.aMax
      | 3 => some (codeOfBool p.lock)
      | _ => none
    else (axleOfNumber r).bind fun a => axleField (p.axles.get a) f
  | 2 =>
    if r ≤ 31 then (chanOfNumber r).bind fun c => calibField (p.calib.get c) f
    else if r ≤ 40 then none
    else (cornerOfNumber (r - 40)).bind fun k => mapField (p.cornerMap.get k) f
  | 3 =>
    if r ≤ 16 then (p.row r).bind fun row => ptField row f
    else if r ≤ 20 then none
    else if r ≤ 28 then (nth p.chassisFilters (r - 20)).bind fun x => filterField x f
    else if r ≤ 30 then none
    else if r ≤ 38 then (nth p.bodyFilters (r - 30)).bind fun x => filterField x f
    else if r = 40 then nth p.baseDamping f
    else if r = 41 then nth p.jointLimit f
    else if r = 42 then nth p.tagGain f
    else if r = 50 then thrField p.thr f
    else none
  | _ => none

def setAxleField (a : AxleConst) (f : Nat) (v : Int) : AxleConst :=
  match f with
  | 1 => { a with area := v.toNat }
  | 2 => { a with unsprung := v.toNat }
  | 3 => { a with factor := v.toNat }
  | 4 => { a with threshold := v.toNat }
  | 5 => { a with substitute := v.toNat }
  | _ => a

def setCalibField (c : Calib) (f : Nat) (v : Int) : Calib :=
  match f with
  | 1 => { c with fitted := v == 1 }
  | 2 => { c with scale := v }
  | 3 => { c with offset := v.toNat }
  | 4 => { c with trim := v.toNat }
  | 5 => { c with gainOn := v == 1 }
  | _ => c

def setMapField (m : MapRow) (f : Nat) (v : Int) : MapRow :=
  match f with
  | 1 => { m with height := idx8OfCode v }
  | 2 => { m with pressure := idx8OfCode v }
  | _ => m

def setPtField (r : PtCfg) (f : Nat) (v : Int) : PtCfg :=
  match f with
  | 1 => { r with inUse := v == 1 }
  | 2 => { r with link := linkOfCode v }
  | 3 => { r with node := v.toNat }
  | 4 => { r with role := roleOfCode v }
  | 5 => { r with door := doorOfCode v }
  | 6 => { r with lease := v.toNat }
  | 7 => { r with expected := v == 1 }
  | _ => r

def setFilterField (x : Filter) (f : Nat) (v : Int) : Filter :=
  match f with
  | 1 => { x with inUse := v == 1 }
  | 2 => { x with type := filterTypeOfCode v }
  | 3 => { x with low := v.toNat }
  | 4 => { x with high := v.toNat }
  | _ => x

def setThrField (t : Thresholds) (f : Nat) (v : Int) : Thresholds :=
  match f with
  | 1 => { t with trip := v.toNat }
  | 2 => { t with holdFall := v.toNat }
  | 3 => { t with holdRise := v.toNat }
  | 4 => { t with fillFall := v.toNat }
  | 5 => { t with fillRise := v.toNat }
  | 6 => { t with riseFall := v.toNat }
  | 7 => { t with riseRise := v.toNat }
  | _ => t

/-- A configuration with one parameter changed to the value the store's number stands for. -/
def Params.withValue (p : Params) (index : Nat) (v : Int) : Params :=
  let r := recordOf index
  let f := fieldOf index
  match groupOf index with
  | 1 =>
    if r = 0 then
      match f with
      | 1 => { p with pMax := v.toNat }
      | 2 => { p with aMax := v.toNat }
      | 3 => { p with lock := v == 1 }
      | _ => p
    else match axleOfNumber r with
      | some a => { p with axles := p.axles.set a (setAxleField (p.axles.get a) f v) }
      | none => p
  | 2 =>
    if r ≤ 31 then
      match chanOfNumber r with
      | some c => { p with calib := p.calib.set c (setCalibField (p.calib.get c) f v) }
      | none => p
    else if r ≤ 40 then p
    else match cornerOfNumber (r - 40) with
      | some k => { p with cornerMap := p.cornerMap.set k (setMapField (p.cornerMap.get k) f v) }
      | none => p
  | 3 =>
    if r ≤ 16 then { p with pt := setNth p.pt r fun row => setPtField row f v }
    else if r ≤ 20 then p
    else if r ≤ 28 then { p with chassisFilters := setNth p.chassisFilters (r - 20) fun x => setFilterField x f v }
    else if r ≤ 30 then p
    else if r ≤ 38 then { p with bodyFilters := setNth p.bodyFilters (r - 30) fun x => setFilterField x f v }
    else if r = 40 then { p with baseDamping := setNth p.baseDamping f fun _ => v }
    else if r = 41 then { p with jointLimit := setNth p.jointLimit f fun _ => v }
    else if r = 42 then { p with tagGain := setNth p.tagGain f fun _ => v }
    else if r = 50 then { p with thr := setThrField p.thr f v }
    else p
  | _ => p

end Sys2Proof.Machine
end

