-- ==== Sys2Proof/Machine/Records.lean ====
section
/-! DEFINITION. The records the blocks keep (chapters 1 to 11), each with the value it takes after every reset.
A figure the manual defines from another (a channel's mode and readback, a reported height, an age) is not kept
twice: Flags.lean computes it. -/
namespace Sys2Proof.Machine

/-! ## Measurement unit (chapter 1) -/

inductive ChanState where
  | valid
  | held
  | failed
deriving DecidableEq, Repr

/-- The volatile fields of a measurement channel record (1.1). -/
structure ChanRec where
  raw : Nat
  st : Option ChanState
  value : Option Int
  failTime : Nat
  recTime : Nat
  wasOut : Bool
deriving DecidableEq, Repr

/-- R21. -/
def ChanRec.reset : ChanRec := { raw := 0, st := none, value := none, failTime := 0, recTime := 0, wasOut := false }

inductive Freshness where
  | awaiting
  | fresh
  | stale
  | demandLost
deriving DecidableEq, Repr

inductive SpeedState where
  | standstill
  | slow
  | moving
  | unknown
deriving DecidableEq, Repr

inductive Gear where
  | neutral
  | forward
  | reverse
deriving DecidableEq, Repr

/-- The motion record (1.6). The age is `now` less `acceptedAt`; `timer` is the freshness timer. -/
structure MotionRec where
  speed : Nat
  brake : Nat
  accel : Nat
  gear : Gear
  rolling : Option Nat
  acceptedAt : Option Nat
  freshness : Freshness
  speedState : SpeedState
  refused : Nat
  repeated : Nat
  timer : Timer
deriving DecidableEq, Repr

/-- R15. -/
def MotionRec.reset : MotionRec :=
  { speed := 0, brake := 0, accel := 0, gear := .neutral, rolling := none, acceptedAt := none, freshness := .awaiting
    speedState := .unknown, refused := 0, repeated := 0, timer := none }

/-- The period timers: the MU's sampling timer (R3), the AD's own (R18), the BDU's (R107), the LU's (R126) and
the AU's (R160). -/
structure Periods where
  sample : Timer
  coil : Timer
  brake : Timer
  levelling : Timer
  articulation : Timer
deriving DecidableEq, Repr

/-- R107, R126, R160: stopped until the first sample. -/
def Periods.reset : Periods := { sample := none, coil := none, brake := none, levelling := none, articulation := none }

/-! ## Actuator drivers (1.7) -/

inductive Valve where
  | hold
  | fill
  | exhaust
deriving DecidableEq, Repr

inductive Lock where
  | engaged
  | free
deriving DecidableEq, Repr

inductive Line where
  | asserted
  | clear
deriving DecidableEq, Repr

inductive Lamp where
  | on
  | off
deriving DecidableEq, Repr

/-- An actuator channel record; the mode and the readback follow from these fields (R16, R17). -/
structure ActRec (κ : Type) where
  command : Option κ
  release : Bool
  overridden : Bool
  coil : Coil
  failed : Bool
  persist : Nat
deriving DecidableEq, Repr

/-- R21: every channel but TS. -/
def ActRec.reset {κ : Type} : ActRec κ :=
  { command := none, release := false, overridden := false, coil := .ok, failed := false, persist := 0 }

/-- The 20 actuator channels. The spare channel takes no command (R16). -/
structure Actuators where
  m : PerAxle (ActRec Nat)
  c : PerCorner (ActRec Valve)
  dp : ActRec Nat
  dn : ActRec Nat
  ts : ActRec Int
  tl : ActRec Lock
  line : ActRec Line
  amber : ActRec Lamp
  red : ActRec Lamp
  spare : ActRec Unit
deriving DecidableEq, Repr

/-- R21: TS leaves reset overridden by the spring-engaged lock. -/
def Actuators.reset : Actuators :=
  { m := .make fun _ => .reset, c := .make fun _ => .reset, dp := .reset, dn := .reset
    ts := { ActRec.reset with overridden := true }, tl := .reset, line := .reset, amber := .reset, red := .reset
    spare := .reset }

/-! ## Interlock table (chapter 2) -/

inductive Kind where
  | door
  | ramp
  | kneel
  | hold
  | service
deriving DecidableEq, Repr

/-- The zone of an entry (2.2). -/
inductive EntryZone where
  | front
  | rear
  | whole
deriving DecidableEq, Repr

inductive Opening where
  | closed
  | opening
  | opened
deriving DecidableEq, Repr

inductive Reason where
  | notStandstill
  | holdNotEstablished
  | airReserve
  | zoneFailed
  | rollCall
deriving DecidableEq, Repr

/-- A set of effects (2.2). -/
structure Effects where
  stopBrake : Bool
  driveInhibit : Bool
  keepLow : Bool
  levelFreeze : Bool
  tagCentre : Bool
deriving DecidableEq, Repr

/-- The state of an entry; a pending reason is present exactly while it is PENDING (R27). -/
inductive EntryState where
  | pending (r : Reason)
  | active
deriving DecidableEq, Repr

/-- An interlock entry (2.2). The owner is a PT row, 1 to 16. -/
structure Entry where
  owner : Nat
  tag : Nat
  kind : Kind
  zone : EntryZone
  effects : Effects
  state : EntryState
  orphaned : Bool
  depth : Option Nat
  opening : Option Opening
  seq : Nat
deriving DecidableEq, Repr

inductive RollCall where
  | awaiting
  | opened
  | closed
deriving DecidableEq, Repr

/-- The interlock table, its sequence counter and the roll call (2.3, 2.8). -/
structure ItRec where
  entries : List Entry
  nextSeq : Nat
  rollCall : RollCall
  window : Timer
deriving DecidableEq, Repr

/-- R47. -/
def ItRec.reset : ItRec := { entries := [], nextSeq := 1, rollCall := .awaiting, window := none }

inductive Presence where
  | absent
  | present
  | silent
deriving DecidableEq, Repr

/-- The fields an ASSERT, an AMEND or a REPORT_ENTRY carries, as codes (R194). A depth or a set of effects not
carried is absent; any other code not carried is 0. -/
structure EntryFields where
  tag : Nat
  kind : Nat
  effects : Option Effects
  zone : Nat
  depth : Option Nat
  opening : Nat
deriving DecidableEq, Repr

/-- A report context (3.8). `code` and `ref` are those of its latest frame; the reply returns them (log entry 13). -/
structure ReportCtx where
  expected : Nat
  received : Nat
  staged : List EntryFields
  lastFrame : Nat
  code : Nat
  ref : Nat
deriving DecidableEq, Repr

/-- The volatile fields of a PT row (2.1). `expected` is roll-call expected as read at the opening (R40). -/
structure PtVol where
  presence : Presence
  deadline : Timer
  report : Option ReportCtx
  reported : Bool
  expected : Bool
deriving DecidableEq, Repr

/-- R26. -/
def PtVol.reset : PtVol := { presence := .absent, deadline := none, report := none, reported := false, expected := false }

/-! ## Stop hold controller (chapter 5) -/

inductive HoldState where
  | off
  | arming
  | applying
  | established
  | holdFault
  | releaseWait
  | releasing
deriving DecidableEq, Repr

/-- The stop-hold record (5.1). A1's target is 0 at all times and has no field. `standstillDue` says that the resolver
has been given a change to STANDSTILL first and that the SHC has still to take it; `standstillTaken` says that the SHC has
made its transition from ARMING at the change to STANDSTILL that stands (R101). -/
structure ShcRec where
  state : HoldState
  target2 : Nat
  target3 : Nat
  target4 : Nat
  holdRequested : Bool
  establishTimer : Timer
  creep : Bool
  ceiling : Bool
  creepTimer : Timer
  standstillDue : Bool
  standstillTaken : Bool
deriving DecidableEq, Repr

/-- R106. -/
def ShcRec.reset : ShcRec :=
  { state := .off, target2 := 0, target3 := 0, target4 := 0, holdRequested := false, establishTimer := none
    creep := false, ceiling := false, creepTimer := none, standstillDue := false, standstillTaken := false }

/-! ## Brake distribution unit (chapter 6) -/

inductive LoadSource where
  | live
  | frozen
  | substitute
deriving DecidableEq, Repr

/-- The per-axle fields of the brake record (6.1). -/
structure AxleRec where
  load : Option Nat
  source : LoadSource
  force : Nat
  pressure : Nat
  saturated : Bool
  output : Nat
deriving DecidableEq, Repr

/-- R125. -/
def AxleRec.reset : AxleRec :=
  { load := none, source := .substitute, force := 0, pressure := 0, saturated := false, output := 0 }

/-- The brake record (6.1). -/
structure BduRec where
  target : Nat
  bias : Nat
  axles : PerAxle AxleRec
deriving DecidableEq, Repr

/-- R125. -/
def BduRec.reset : BduRec := { target := 0, bias := 0, axles := .make fun _ => .reset }

/-! ## Levelling unit (chapters 7 and 8) -/

inductive CornerMode where
  | ride
  | kneel
  | frozen
  | failed
deriving DecidableEq, Repr

inductive HoldReason where
  | failed
  | heightHeld
  | supply
  | freeze
  | braking
  | persistence
  | bottomed
  | air
deriving DecidableEq, Repr

/-- A corner's frozen load: absent, present without a figure, or present with one in daN (7.1). -/
inductive FrozenLoad where
  | absent
  | noFigure
  | figure (n : Nat)
deriving DecidableEq, Repr

/-- A corner record (7.1). The filtered height is in sixteenths of a mm. -/
structure CornerRec where
  mode : CornerMode
  target : Int
  filtered : Option Int
  valve : Valve
  reason : Option HoldReason
  persist : Nat
  bottomed : Bool
  frozen : FrozenLoad
  wasOut : Bool
deriving DecidableEq, Repr

/-- R143. -/
def CornerRec.reset : CornerRec :=
  { mode := .ride, target := 0, filtered := none, valve := .hold, reason := none, persist := 0, bottomed := false
    frozen := .absent, wasOut := false }

inductive ZoneState where
  | up
  | lowering
  | down
  | rising
  | stuckLow
deriving DecidableEq, Repr

/-- A kneel zone record (8.1). The timer is the lowering timer in LOWERING and the rising timer in RISING. -/
structure ZoneRec where
  state : ZoneState
  depth : Nat
  target : Nat
  keepLow : Bool
  incomplete : Bool
  override : Bool
  moved : Bool
  timer : Timer
deriving DecidableEq, Repr

/-- R159. -/
def ZoneRec.reset : ZoneRec :=
  { state := .up, depth := 0, target := 0, keepLow := false, incomplete := false, override := false, moved := false
    timer := none }

inductive RideLevel where
  | normal
  | raised
deriving DecidableEq, Repr

inductive RideCause where
  | request
  | speed
deriving DecidableEq, Repr

/-- What the levelling unit keeps. `freeze` is level freeze as the LU last took it from a publication: by it the LU knows
that a publication handed to it changes the figure. Modes and loads follow the record last published (R127, R140). -/
structure LuRec where
  corners : PerCorner CornerRec
  front : ZoneRec
  rear : ZoneRec
  ride : RideLevel
  cause : RideCause
  errorSum : Nat
  levelFlag : Bool
  freeze : Bool
deriving DecidableEq, Repr

/-- R143, R159. -/
def LuRec.reset : LuRec :=
  { corners := .make fun _ => .reset, front := .reset, rear := .reset, ride := .normal, cause := .request
    errorSum := 1760, levelFlag := false, freeze := false }

/-! ## Articulation unit (chapter 9) -/

inductive TagState where
  | steering
  | centring
  | centred
  | fault
deriving DecidableEq, Repr

inductive FaultCause where
  | deviation
  | lockFailed
deriving DecidableEq, Repr

/-- The centring causes (9.4). -/
structure Causes where
  speed : Bool
  reverse : Bool
  rearZone : Bool
  tagCentre : Bool
  speedUnknown : Bool
  joint : Bool
deriving DecidableEq, Repr

/-- The joint damping record (9.1) and the tag steering record (9.4). `seeded` says whether the commanded angle has been
seeded since reset (R169). -/
structure AuRec where
  known : Bool
  reverse : Bool
  baseDamping : Int
  jointLimit : Int
  lastForward : Int
  dpOut : Nat
  dnOut : Nat
  foldLimit : Bool
  torque : Nat
  tag : TagState
  causes : Causes
  gain : Int
  target : Int
  clamp : Bool
  commanded : Int
  deviation : Nat
  fault : Option FaultCause
  seeded : Bool
deriving DecidableEq, Repr

/-- R175. -/
def AuRec.reset : AuRec :=
  { known := false, reverse := false, baseDamping := 850, jointLimit := 530, lastForward := 530, dpOut := 1000
    dnOut := 1000, foldLimit := false, torque := 1000, tag := .centring
    causes := { speed := false, reverse := false, rearZone := false, tagCentre := false, speedUnknown := true, joint := true }
    gain := 0, target := 0, clamp := false, commanded := 0, deviation := 0, fault := none
    seeded := false }

/-! ## Restraint resolver (chapter 4) -/

/-- The contributing kinds (R82). -/
structure KindSet where
  door : Bool
  ramp : Bool
  kneel : Bool
  hold : Bool
  service : Bool
deriving DecidableEq, Repr

/-- The contributing conditions (R82). -/
structure CondSet where
  rollCall : Bool
  kneelZone : Bool
  stopHold : Bool
  zoneOverride : Bool
  jointFailed : Bool
  tagFault : Bool
  foldLimit : Bool
deriving DecidableEq, Repr

/-- The effective restraint record (4.1) but for its change count, which RrRec keeps. -/
structure Restraint where
  holdRequested : Bool
  driveInhibit : Bool
  keepLowFront : Bool
  keepLowRear : Bool
  depthFront : Nat
  depthRear : Nat
  levelFreeze : Bool
  tagCentre : Bool
  doorAtSpeed : Bool
  speedLimit : Option Nat
  torque : Nat
  kinds : KindSet
  conds : CondSet
  amber : Bool
  red : Bool
deriving DecidableEq, Repr

/-- An entry as the resolver reads it: its pending reason is none of the resolver's inputs (R45). -/
structure RrEntry where
  kind : Kind
  zone : EntryZone
  effects : Effects
  active : Bool
  orphaned : Bool
  depth : Option Nat
  opening : Option Opening
deriving DecidableEq, Repr

/-- A kneel zone as the resolver reads it (4.1). -/
structure RrZone where
  state : ZoneState
  override : Bool
  incomplete : Bool
deriving DecidableEq, Repr

/-- The inputs of the restraint resolver (4.1). A channel that is unfitted or has had no sample yet is in no state the
resolver reads and stands as VALID; of the tag steering state it reads whether it is FAULT. -/
structure RrIn where
  entries : List RrEntry
  rollCall : RollCall
  front : RrZone
  rear : RrZone
  hold : HoldState
  creep : Bool
  ceiling : Bool
  speed : SpeedState
  chans : PerChan ChanState
  driven : PerAxle Bool
  modFailed : PerAxle Bool
  valveFailed : PerCorner Bool
  dpFailed : Bool
  dnFailed : Bool
  tlFailed : Bool
  supplyLow : Bool
  holdOk : Bool
  fillOk : Bool
  riseReserve : Bool
  tagFault : Bool
  foldLimit : Bool
  torque : Nat
deriving DecidableEq, Repr

/-- The inputs as the reset values of their owners give them. -/
def RrIn.reset : RrIn :=
  { entries := [], rollCall := .awaiting, front := { state := .up, override := false, incomplete := false }
    rear := { state := .up, override := false, incomplete := false }, hold := .off, creep := false, ceiling := false
    speed := .unknown, chans := .make fun _ => .valid, driven := .make fun _ => false, modFailed := .make fun _ => false
    valveFailed := .make fun _ => false, dpFailed := false, dnFailed := false, tlFailed := false, supplyLow := false
    holdOk := true, fillOk := true, riseReserve := true, tagFault := false, foldLimit := false, torque := 1000 }

/-- One input of the resolver: a change of it is one event of the resolver's (4.1, R74). The table with the roll-call
phase is one input, and so is a zone's record (R45, 4.1). -/
inductive RrInput where
  | table
  | zone (z : Zone)
  | hold
  | creep
  | ceiling
  | speed
  | chan (c : Chan)
  | mode (a : Axle)
  | modFailed (a : Axle)
  | valveFailed (k : Corner)
  | dpFailed
  | dnFailed
  | tlFailed
  | supplyLow
  | holdOk
  | fillOk
  | riseReserve
  | tagFault
  | foldLimit
  | torque
deriving DecidableEq, Repr

/-- What the grant of an entry turns on (R32), as the request handler has been given it. -/
structure GrantView where
  rollCall : RollCall
  speed : SpeedState
  hold : HoldState
  riseReserve : Bool
  frontFailed : Bool
  rearFailed : Bool
deriving DecidableEq, Repr

/-- The changes at which the PENDING entries are examined again (R33), apart from the close: of the speed state, of the
stop-hold state, of RISE_RESERVE, and of whether a kneel zone holds a FAILED corner. -/
inductive GrantSignal where
  | speed
  | hold
  | rise
  | zone (z : Zone)
deriving DecidableEq, Repr

/-- What the restraint resolver keeps (chapter 4, opening): the record last published with its change count,
the door-at-speed flag, the RED latch with the hold-fault timer, and the repeat timer. `view` is the inputs as the
resolver has taken them, the torque limit and the fold-limit flag last handed by the AU among them. `due` holds, for each
moment that changed an input and that the resolver has not wholly taken, oldest first, the inputs as they stood after each
event of that moment in turn (R45, R74); `noted` holds those of the moment that is being made, and is empty between two
commands. The remaining lists are the changes of the fields a consumer reads that have been published and that the
consumer has not yet taken, oldest first: each consumer acts on a publication as an event of its own, which follows it
(R74). The AU reads tag centre in the published record (R160), and `toAu` says that a change of it has not been acted
on. -/
structure RrRec where
  published : Option Restraint
  count : Nat
  doorAtSpeed : Bool
  redLatch : Bool
  holdFaultTimer : Timer
  holdFaultLong : Bool
  repeatTimer : Timer
  view : RrIn
  noted : List RrIn
  due : List (List RrIn)
  toShc : List Bool
  toFront : List (Nat × Bool)
  toRear : List (Nat × Bool)
  toLu : List Bool
  toAu : Bool
deriving DecidableEq, Repr

/-- R88. -/
def RrRec.reset : RrRec :=
  { published := none, count := 0, doorAtSpeed := false, redLatch := false, holdFaultTimer := none
    holdFaultLong := false, repeatTimer := none, view := .reset, noted := [], due := [], toShc := [], toFront := []
    toRear := [], toLu := [], toAu := false }

/-! ## Supply and air monitor, resets (chapter 10) -/

/-- The supply record and the comparators (10.1, 10.2). `sampled` says whether the first sample after reset has
decided the comparators (R179). -/
structure SamRec where
  supplyLow : Bool
  restoreTimer : Timer
  holdOk : Bool
  fillOk : Bool
  riseReserve : Bool
  sampled : Bool
deriving DecidableEq, Repr

/-- R181. -/
def SamRec.reset : SamRec :=
  { supplyLow := false, restoreTimer := none, holdOk := true, fillOk := true, riseReserve := true, sampled := false }

inductive ResetCause where
  | powerOn
  | supplyDip
  | commanded
deriving DecidableEq, Repr

/-- How far the part has come into service (R182, R185): held in reset; out of reset with the resolver's first
recomputation due; with the first sample due; in service. -/
inductive Service where
  | held
  | publish
  | firstSample
  | inService
deriving DecidableEq, Repr

/-- What has happened to the supply and to the reset since the part last left reset (R182 to R184). `test` is the
time at which the part may leave reset: the end of the 20 ms supply test, or at once for a COMMANDED reset. -/
structure SupplyRec where
  test : Timer
  below5 : Bool
  below9 : Bool
  commanded : Bool
deriving DecidableEq, Repr

/-- An accepted RESTART: the time 100 ms after its acceptance, and whether its reply has been sent (R184). -/
structure RestartRec where
  due : Nat
  replySent : Bool
deriving DecidableEq, Repr

/-! ## Links (chapter 11) -/

inductive RefusalReason where
  | notParticipant
  | role
  | tableFull
  | duplicate
  | noEntry
  | doorOpen
  | moving
  | badField
  | notStandstill
  | locked
  | invalid
deriving DecidableEq, Repr

/-- The entry summary (11.5). -/
structure Summary where
  seq : Nat
  link : Link
  node : Nat
  tag : Nat
  kind : Kind
  zone : EntryZone
  effects : Effects
  state : EntryState
  orphaned : Bool
  retired : Bool
  opening : Option Opening
  depth : Option Nat
deriving DecidableEq, Repr

/-- The causes of an entry-state notice (11.5). -/
structure NoticeCauses where
  creation : Bool
  grant : Bool
  pendingReason : Bool
  fieldChange : Bool
  orphaning : Bool
  adoption : Bool
  retirement : Bool
deriving DecidableEq, Repr

/-- A notice of the entry-notice list (R191). -/
inductive Notice where
  | entryState (summary : Summary) (causes : NoticeCauses)
  | rollCall (window expected : Nat)
deriving DecidableEq, Repr

/-- The fields of an entry that a request may leave as they stand (R49). -/
structure KeptSet where
  kind : Bool
  zone : Bool
  effects : Bool
  depth : Bool
  opening : Bool
deriving DecidableEq, Repr

/-- The marks of a reply (11.5). -/
structure Marks where
  clamped : Bool
  adopted : Bool
  notClosed : Bool
  notFound : Bool
  alreadyClosed : Bool
  abandoned : Bool
  last : Bool
deriving DecidableEq, Repr

/-- What a DIAGNOSTIC_QUERY reports of an actuator channel (R199). A command or readback is carried as a number:
pressure, damping or angle as the figure, a named value as its list code, absent as none. -/
structure ActReport where
  command : Option Int
  release : Bool
  overridden : Bool
  coil : Coil
  persist : Nat
  failed : Bool
  driven : Bool
  readback : Option Int
deriving DecidableEq, Repr

/-- What bytes 7 to 15 of a reply carry (11.5). -/
inductive ReplyTail where
  | none
  | summary (s : Summary)
  | releaseAll (retired stayed : Nat)
  | report (refused kept : Nat) (stayed : List Nat)
  | redConditions (doorAtSpeed creepCeiling holdFaultLong tagFault : Bool)
  | parameter (index : Nat)
  | channel (r : ChanRec)
  | actuator (r : ActReport)
deriving DecidableEq, Repr

/-- The reply code, with the refusal reason of a REFUSED (R49). -/
inductive ReplyCode where
  | done
  | donePartly
  | refused (r : RefusalReason)
deriving DecidableEq, Repr

/-- A reply frame, addressed to a node (R49, 11.5). The key it concerns stands in the entry summary, the one place R194's
layout has for it; a reply without a summary carries none (DESIGN CHOICE, log entry 43). -/
structure Reply where
  dest : Nat
  request : Nat
  ref : Nat
  code : ReplyCode
  marks : Marks
  kept : KeptSet
  total : Nat
  tail : ReplyTail
deriving DecidableEq, Repr

/-- What a transmit slot may hold (R190). -/
inductive TxItem where
  | restraint (r : Restraint) (count : Nat)
  | reply (r : Reply)
  | notice (n : Notice)
  | status (page : Nat)
deriving DecidableEq, Repr

/-- A transmit slot: free, waiting, or in transmission (R190). -/
inductive Slot where
  | free
  | waiting (i : TxItem)
  | sending (i : TxItem)
deriving DecidableEq, Repr

/-- An accepted frame in a receive buffer (R188). -/
structure RxFrame where
  type : FilterType
  source : Nat
  data : List Byte
deriving DecidableEq, Repr

/-- A list context: the frames not yet placed, and what the reply carries (R61). -/
structure ListCtx where
  dest : Nat
  ref : Nat
  total : Nat
  rest : List Summary
deriving DecidableEq, Repr

/-- One link controller with the list context on its link (R61, 11.2 to 11.4). `nextPage` is the
page count, the status page next in turn, `due` says that this page is due, and `returned` holds the pages taken before it
that a restraint notice has displaced from a slot and that are due again, first to go first (R190, R191). -/
structure LinkRec where
  rx : List RxFrame
  overruns : Nat
  replies : List Reply
  notices : List Notice
  slot1 : Slot
  slot2 : Slot
  slot3 : Slot
  txErrors : Nat
  rxErrors : Nat
  recessive : Nat
  lost : Nat
  due : Bool
  returned : List Nat
  nextPage : Nat
  listCtx : Option ListCtx
  /-- The frame last sent, as the item the slot held: the model's own field. -/
  lastSent : Option TxItem
deriving DecidableEq, Repr

/-- R200, R73. -/
def LinkRec.reset : LinkRec :=
  { rx := [], overruns := 0, replies := [], notices := [], slot1 := .free, slot2 := .free, slot3 := .free, txErrors := 0
    rxErrors := 0, recessive := 0, lost := 0, due := false, returned := [], nextPage := 0, listCtx := none, lastSent := none }

/-- The configuration store: two banks, which is current, the write in flight, the commit count, the staging copy
as (index, value) pairs with no index twice, and the refusal index (R195 to R197). -/
structure StoreRec where
  bank1 : Params
  bank2 : Params
  secondCurrent : Bool
  writing : Option Params
  commits : Nat
  staging : List (Nat × Int)
  refusal : Option Nat
deriving DecidableEq, Repr

/-- R197, as delivered. -/
def StoreRec.delivered : StoreRec :=
  { bank1 := Sys2Proof.Machine.delivered, bank2 := Sys2Proof.Machine.delivered, secondCurrent := false, writing := none, commits := 0, staging := [], refusal := none }

/-- The configuration the current bank holds (R197). -/
def StoreRec.current (c : StoreRec) : Params := if c.secondCurrent then c.bank2 else c.bank1

/-- What a reset leaves of the store: the banks, the mark and the count stay; a write in flight is ended, the staging
copy is emptied and the refusal index cleared (R197, R200). The bank a write in flight was going into keeps its earlier
contents (DESIGN CHOICE, log entry 54). -/
def StoreRec.afterReset (c : StoreRec) : StoreRec := { c with writing := none, staging := [], refusal := none }

end Sys2Proof.Machine
end

