-- ==== Sys2Proof/Machine/State.lean ====
section
/-! DEFINITION. The machine's whole state as plain data, its reasons to stop, and the state right after reset. -/
namespace Sys2Proof.Machine

/-- Why the machine could stop with a fault. The manual gives every step an effect in every state, so no command
faults; the one constructor stands for the type and no meaning answers it (safe). -/
inductive Fault where
  /-- Raised by no meaning (safe): the manual describes no state in which the part stops for good. -/
  | none
deriving DecidableEq, Repr

/-- Why the model could refuse a command. -/
inductive Refusal where
  /-- Raised by a command's arm that has no meaning yet; no arm of this model raises it (safe). -/
  | notModelled (mnemonic : String)
deriving DecidableEq, Repr

/-- The part (chapters 1 to 11), the model's clock and draws, and the commands that are waiting. -/
structure State where
  /-- The model's own: the time in ms. -/
  now : Nat
  /-- The model's own: how many free orders and free conditions have been drawn. -/
  draws : Nat
  service : Service
  supply : SupplyRec
  restart : Option RestartRec
  resetCause : Option ResetCause
  resetCount : Nat
  /-- The configuration in force. -/
  cfg : Params
  store : StoreRec
  /-- The corner map as the latest sample took it: a commit's map takes effect at the next sample (R11). -/
  map : PerCorner MapRow
  periods : Periods
  chans : PerChan ChanRec
  motion : MotionRec
  act : Actuators
  pt : List PtVol
  it : ItRec
  rr : RrRec
  shc : ShcRec
  bdu : BduRec
  lu : LuRec
  au : AuRec
  sam : SamRec
  /-- The status page timer, one for both links (R191). -/
  pageTimer : Timer
  chassis : LinkRec
  body : LinkRec
  /-- The model's own: the commands that are waiting, first in first out. -/
  pending : List Instr
deriving DecidableEq, Repr

/-- The delivered part right after its first power-on reset: the blocks hold their reset values, the delivered
configuration is in force and the reset cause is recorded (R185 step 1). The restraint resolver's first recomputation
(step 2) and the first sample (step 3) are still to come. -/
def State.reset : State :=
  { now := 0, draws := 0, service := .publish
    supply := { test := none, below5 := false, below9 := false, commanded := false }
    restart := none, resetCause := some .powerOn, resetCount := 1, cfg := delivered, store := .delivered
    map := delivered.cornerMap, periods := .reset, chans := .make fun _ => .reset, motion := .reset, act := .reset
    pt := List.replicate 16 .reset, it := .reset, rr := .reset, shc := .reset, bdu := .reset, lu := .reset
    au := .reset, sam := .reset, pageTimer := none, chassis := .reset, body := .reset, pending := [] }

end Sys2Proof.Machine
end

