-- ==== Sys2Proof/Machine/Operands.lean ====
section
/-! DEFINITION. What frames carry: the fields of an identifier (R186), the operands of motion frames and requests
read from their bytes, the codes of named values, and the bytes of the frames the part sends (R194). -/
namespace Sys2Proof.Machine

/-! ## Identifiers (R186) -/

def typeOf (i : Ident) : Nat := i.toNat / 2097152 % 64
def destOf (i : Ident) : Nat := i.toNat / 16384 % 128
def sourceOf (i : Ident) : Nat := i.toNat / 128 % 128

/-- The identifier of a frame the part sends: node 0 is its source. -/
def identOf (cls type dest page : Nat) : Ident := BitVec.ofNat 29 (cls * 134217728 + type * 2097152 + dest * 16384 + page)

/-! ## Reading bytes -/

/-- Byte n of a data field, 0 when it is shorter. -/
def byteAt (d : List Byte) (n : Nat) : Nat := (d.getD n 0).toNat

/-- The two bytes from n, most significant first. -/
def pairAt (d : List Byte) (n : Nat) : Nat := byteAt d n * 256 + byteAt d (n + 1)

/-- Bit n of a byte's figure. -/
def bitOf (v n : Nat) : Bool := v / 2 ^ n % 2 == 1

/-- Two bytes as a signed figure in two's complement. -/
def signedPair (n : Nat) : Int := if n < 32768 then (n : Int) else (n : Int) - 65536

/-! ## Codes: they count from 1 in the order the manual lists the values; 0 means absent -/

def kindOfCode : Nat → Option Kind
  | 1 => some .door
  | 2 => some .ramp
  | 3 => some .kneel
  | 4 => some .hold
  | 5 => some .service
  | _ => none

def codeOfKind : Kind → Nat
  | .door => 1
  | .ramp => 2
  | .kneel => 3
  | .hold => 4
  | .service => 5

def zoneOfCode : Nat → Option EntryZone
  | 1 => some .front
  | 2 => some .rear
  | 3 => some .whole
  | _ => none

def codeOfZone : EntryZone → Nat
  | .front => 1
  | .rear => 2
  | .whole => 3

def openingOfCode : Nat → Option Opening
  | 1 => some .closed
  | 2 => some .opening
  | 3 => some .opened
  | _ => none

def codeOfOpening : Option Opening → Nat
  | none => 0
  | some .closed => 1
  | some .opening => 2
  | some .opened => 3

def codeOfReason : EntryState → Nat
  | .active => 0
  | .pending .notStandstill => 1
  | .pending .holdNotEstablished => 2
  | .pending .airReserve => 3
  | .pending .zoneFailed => 4
  | .pending .rollCall => 5

def codeOfRefusal : RefusalReason → Nat
  | .notParticipant => 1
  | .role => 2
  | .tableFull => 3
  | .duplicate => 4
  | .noEntry => 5
  | .doorOpen => 6
  | .moving => 7
  | .badField => 8
  | .notStandstill => 9
  | .locked => 10
  | .invalid => 11

def gearOfCode : Nat → Option Gear
  | 1 => some .neutral
  | 2 => some .forward
  | 3 => some .reverse
  | _ => none

/-- The link code of a frame: 0 CHASSIS, 1 BODY. -/
def linkOfByte : Nat → Option Link
  | 0 => some .chassis
  | 1 => some .body
  | _ => none

def byteOfLink : Link → Nat
  | .chassis => 0
  | .body => 1

/-- Bits 0 to 4 as a set of effects. -/
def effectsOfBits (v : Nat) : Effects :=
  { stopBrake := bitOf v 0, driveInhibit := bitOf v 1, keepLow := bitOf v 2, levelFreeze := bitOf v 3, tagCentre := bitOf v 4 }

def bitsOf : List Bool → Nat
  | [] => 0
  | b :: rest => (if b then 1 else 0) + 2 * bitsOf rest

def bitsOfEffects (e : Effects) : Nat := bitsOf [e.stopBrake, e.driveInhibit, e.keepLow, e.levelFreeze, e.tagCentre]

/-! ## Request codes (11.5) -/

def reqAssert : Nat := 1
def reqAmend : Nat := 2
def reqRelease : Nat := 3
def reqReleaseAll : Nat := 4
def reqLookup : Nat := 5
def reqList : Nat := 6
def reqReportBegin : Nat := 7
def reqReportEntry : Nat := 8
def reqOverride : Nat := 9
def reqPresence : Nat := 10
def reqSetRideLevel : Nat := 11
def reqConfigWrite : Nat := 16
def reqConfigCommit : Nat := 17
def reqConfigDiscard : Nat := 18
def reqRestart : Nat := 19
def reqDiagnostic : Nat := 20

/-- Whether byte 0 of a REQUEST names a request (R187 test 5). -/
def isRequestCode (n : Nat) : Bool := (decide (1 ≤ n) && decide (n ≤ 11)) || (decide (16 ≤ n) && decide (n ≤ 20))

/-! ## Operands -/

/-- A motion frame as carried (11.5). -/
structure MotionFrame where
  speed : Nat
  brake : Nat
  accel : Nat
  gear : Option Gear
  rolling : Nat
deriving DecidableEq, Repr

def readMotion (d : List Byte) : MotionFrame :=
  { speed := pairAt d 0, brake := pairAt d 2, accel := pairAt d 4, gear := gearOfCode (byteAt d 6 / 16), rolling := byteAt d 6 % 16 }

/-- A request as taken from a receive buffer: its sender and its eight bytes. -/
structure Request where
  source : Nat
  data : List Byte
deriving DecidableEq, Repr

def Request.byte (r : Request) (n : Nat) : Nat := byteAt r.data n
def Request.code (r : Request) : Nat := r.byte 0
def Request.ref (r : Request) : Nat := r.byte 1

/-- The fields of an ASSERT, AMEND or REPORT_ENTRY: byte 4 says whether a depth (bit 6) and effects (bit 7) are carried. -/
def Request.fields (r : Request) : EntryFields :=
  { tag := r.byte 2
    kind := r.byte 3
    effects := if bitOf (r.byte 4) 7 then some (effectsOfBits (r.byte 4)) else none
    zone := r.byte 5
    depth := if bitOf (r.byte 4) 6 then some (r.byte 6) else none
    opening := r.byte 7 }

/-! ## Frames the part sends -/

def byteOf (n : Nat) : Byte := BitVec.ofNat 8 n

def twoBytes (n : Nat) : List Byte := [byteOf (n / 256), byteOf n]

def fourBytes (n : Nat) : List Byte := [byteOf (n / 16777216), byteOf (n / 65536), byteOf (n / 256), byteOf n]

def zeros (n : Nat) : List Byte := List.replicate n 0

/-- The nine bytes S0 to S8 of an entry summary. -/
def summaryBytes (s : Summary) : List Byte :=
  fourBytes s.seq ++
  [ byteOf (byteOfLink s.link * 128 + s.node),
    byteOf (s.tag + 8 * codeOfKind s.kind + 64 * codeOfZone s.zone),
    byteOf (bitsOfEffects s.effects + bitsOf [s.state == .active, s.orphaned, s.retired] * 32),
    byteOf (codeOfOpening s.opening + 4 * codeOfReason s.state),
    byteOf (s.depth.getD 0) ]

def causesByte (c : NoticeCauses) : Byte :=
  byteOf (bitsOf [c.creation, c.grant, c.pendingReason, c.fieldChange, c.orphaning, c.adoption, c.retirement])

/-- R194: the data of a notice. The bytes of a ROLL_CALL notice to which R194 gives no content are 0 (DESIGN CHOICE, log
entry 51). -/
def noticeBytes : Notice → List Byte
  | .entryState s c => summaryBytes s ++ [causesByte c] ++ zeros 2
  | .rollCall w n => twoBytes w ++ [byteOf n] ++ zeros 5

def codeByte : ReplyCode → Byte
  | .done => 0
  | .donePartly => 1
  | .refused _ => 2

def reasonByte : ReplyCode → Byte
  | .refused r => byteOf (codeOfRefusal r)
  | _ => 0

/-- Bytes 0 to 6 of a reply. -/
def replyHead (r : Reply) : List Byte :=
  let hasSummary := match r.tail with
    | .summary _ => true
    | _ => false
  [ byteOf r.request, byteOf r.ref, codeByte r.code, reasonByte r.code,
    byteOf (bitsOf [r.marks.clamped, r.marks.adopted, r.marks.notClosed, r.marks.notFound, r.marks.alreadyClosed,
      r.marks.abandoned, r.marks.last, hasSummary]),
    byteOf (bitsOf [r.kept.kind, r.kept.zone, r.kept.effects, r.kept.depth, r.kept.opening]),
    byteOf r.total ]

/-- The stayed set of a REPORT reply, one bit per tag. -/
def stayedByte (tags : List Nat) : Byte :=
  byteOf (bitsOf ((List.range 8).map fun t => tags.contains t))

/-- The speed limit in km/h as the restraint notice carries it; 255 for none. -/
def limitByte : Option Nat → Byte
  | none => 255
  | some v => byteOf (v / 10)

def restraintBytes (r : Restraint) (count : Nat) : List Byte :=
  [ byteOf count,
    byteOf (bitsOf [r.holdRequested, r.driveInhibit, r.keepLowFront, r.keepLowRear, r.levelFreeze, r.tagCentre, r.doorAtSpeed, r.amber]),
    byteOf r.depthFront, byteOf r.depthRear, limitByte r.speedLimit ] ++
  twoBytes (r.torque + 1024 * bitsOf [r.red, r.kinds.door, r.kinds.ramp, r.kinds.kneel, r.kinds.hold, r.kinds.service]) ++
  [ byteOf (bitsOf [r.conds.rollCall, r.conds.kneelZone, r.conds.stopHold, r.conds.zoneOverride, r.conds.jointFailed,
      r.conds.tagFault, r.conds.foldLimit]) ]

/-- The priority class of what a slot holds (R186). -/
def TxItem.cls : TxItem → Nat
  | .restraint _ _ => 0
  | .reply _ => 1
  | .notice _ => 2
  | .status _ => 3

end Sys2Proof.Machine
end

