-- ==== Sys2Proof/Machine/Flags.lean ====
section
/-! DEFINITION. Figures and conditions that follow from the records: corners, axles and zones (R2), channel
figures as consumers read them, actuator modes and readbacks (R16, R17), speed states (R14), participants, places
owed and grant conditions (R30, R32), and every field of the effective restraint record (chapter 4). -/
namespace Sys2Proof.Machine

/-! ## Corners, axles, zones (R2) -/

def zoneOf : Corner → Zone
  | .a1L => .front | .a1R => .front | .a2L => .front | .a2R => .front
  | .a3L => .rear | .a3R => .rear | .a4L => .rear | .a4R => .rear

def axleOf : Corner → Axle
  | .a1L => .a1 | .a1R => .a1 | .a2L => .a2 | .a2R => .a2
  | .a3L => .a3 | .a3R => .a3 | .a4L => .a4 | .a4R => .a4

/-- The right side is the door side. -/
def doorSide : Corner → Bool
  | .a1L => false | .a1R => true | .a2L => false | .a2R => true
  | .a3L => false | .a3R => true | .a4L => false | .a4R => true

def zoneCorners : Zone → List Corner
  | .front => [.a1L, .a1R, .a2L, .a2R]
  | .rear => [.a3L, .a3R, .a4L, .a4R]

def doorCorners : Zone → List Corner
  | .front => [.a1R, .a2R]
  | .rear => [.a3R, .a4R]

/-- The far-side corner and the door-side corner of an axle. -/
def axleCorners : Axle → Corner × Corner
  | .a1 => (.a1L, .a1R)
  | .a2 => (.a2L, .a2R)
  | .a3 => (.a3L, .a3R)
  | .a4 => (.a4L, .a4R)

def LuRec.zone (lu : LuRec) : Zone → ZoneRec
  | .front => lu.front
  | .rear => lu.rear

def LuRec.setZone (lu : LuRec) (z : Zone) (r : ZoneRec) : LuRec :=
  match z with
  | .front => { lu with front := r }
  | .rear => { lu with rear := r }

/-- Whether an entry's zone covers a kneel zone: WHOLE covers both (R27). -/
def covers (e : EntryZone) (z : Zone) : Bool :=
  match e, z with
  | .whole, _ => true
  | .front, .front => true
  | .rear, .rear => true
  | .front, .rear => false
  | .rear, .front => false

/-! ## Channels -/

/-- The figure consumers use: the latest sample's while VALID, the kept one while HELD; none while the channel is
FAILED, unfitted or without a value (R3, 1.3). -/
def ChanRec.usable (r : ChanRec) : Option Int :=
  match r.st with
  | some .valid => r.value
  | some .held => r.value
  | some .failed => none
  | none => none

/-- The figure of a channel that is VALID. -/
def ChanRec.validFigure (r : ChanRec) : Option Int := if r.st = some .valid then r.value else none

/-- The height channel the corner map names for a corner (R11). -/
def State.heightChan (s : State) (k : Corner) : ChanRec := s.chans.get (.h (s.map.get k).height)

/-- The pressure channel the corner map names for a corner (R11). -/
def State.pressureChan (s : State) (k : Corner) : ChanRec := s.chans.get (.p (s.map.get k).pressure)

/-- Every fitted channel has had its first sample since reset (R40). -/
def State.allSampled (s : State) : Bool :=
  allChans.all fun c => !(s.cfg.calib.get c).fitted || (s.chans.get c).st.isSome

/-- The reported height of a corner: the filtered height over 16, rounded (R10). -/
def CornerRec.reported (c : CornerRec) : Option Int := c.filtered.map fun f => rdiv f 16

/-- The age of the motion record: ms since the latest accepted frame, 0 before the first (1.6). -/
def State.motionAge (s : State) : Nat :=
  match s.motion.acceptedAt with
  | some t => s.now - t
  | none => 0

/-- R14: the speed state that follows from the freshness and the speed. -/
def speedStateOf (f : Freshness) (speed : Nat) : SpeedState :=
  match f with
  | .fresh => if speed ≤ 15 then .standstill else if speed ≤ 30 then .slow else .moving
  | .awaiting => .unknown
  | .stale => .unknown
  | .demandLost => .unknown

/-- A fresh frame shows the bus not at standstill (R97). -/
def isSliding : SpeedState → Bool
  | .slow => true
  | .moving => true
  | .standstill => false
  | .unknown => false

/-! ## Actuator channels -/

/-- R16: DRIVEN while the channel has a command, no release request, no override and is not failed. -/
def ActRec.driven {κ : Type} (a : ActRec κ) : Bool := a.command.isSome && !a.release && !a.overridden && !a.failed

/-- R19: the lock holds while TL reads back ENGAGED. -/
def lockHolds (tl : ActRec Lock) : Bool := !(tl.driven && tl.command == some .free)

/-- R17: the readback of a modulator. -/
def State.modulatorReadback (s : State) (a : Axle) : Option Int :=
  let r := s.act.m.get a
  if r.driven then r.command.map Int.ofNat else (s.chans.get (.b a)).value

/-- R17: the readback of a corner valve pair. -/
def valveReadback (a : ActRec Valve) : Valve := if a.driven then a.command.getD .hold else .hold

/-- R17: what a damping valve's two current feedbacks show, in both modes. -/
def dampingReadback (first second : ChanRec) : Option Int :=
  match first.validFigure with
  | some v => some v
  | none => second.validFigure

/-- R17: the readback of TS. -/
def State.tagReadback (s : State) : Option Int := if s.act.ts.driven then s.act.ts.command else s.chans.t.value

/-- R17: the readback of TL. -/
def lockReadback (tl : ActRec Lock) : Lock := if lockHolds tl then .engaged else .free

/-- R17: the readback of the drive-inhibit line. -/
def lineReadback (a : ActRec Line) : Line := if a.driven then a.command.getD .asserted else .asserted

/-- R17: the readback of a telltale. -/
def lampReadback (a : ActRec Lamp) : Lamp := if a.driven then a.command.getD .off else .off

/-- R16: the spare channel is RELEASED at all times and reads back OFF. -/
def spareReadback : Lamp := .off

/-! ## Levelling unit -/

/-- The height channel the corner map names for a corner is FAILED, or stands for a FAILED one: it is unfitted, or a commit
has fitted it again and it has had no sample yet, so that its state and its value are absent (R3). -/
def State.heightFailed (s : State) (k : Corner) : Bool :=
  (s.heightChan k).st == some .failed || (s.heightChan k).st == none || !(s.cfg.calib.get (.h (s.map.get k).height)).fitted

/-- R127, R140: level freeze as the record last published has it; before the first publication it is no (R88). -/
def State.levelFreeze (s : State) : Bool := s.rr.published.any Restraint.levelFreeze

/-- R127: the mode that follows from the four inputs. -/
def State.cornerMode (s : State) (k : Corner) : CornerMode :=
  if s.heightFailed k = true ∨ (s.act.c.get k).failed = true then .failed
  else if s.levelFreeze then .frozen
  else if (s.lu.zone (zoneOf k)).state ≠ .up then .kneel
  else .ride

/-- R128: the zone holds a FAILED corner. -/
def LuRec.zoneFailed (lu : LuRec) (z : Zone) : Bool := (zoneCorners z).any fun k => (lu.corners.get k).mode == .failed

/-- R129: the ride-level target. -/
def rideTarget : RideLevel → Int
  | .normal => 0
  | .raised => 60

/-- The zone's corners have kneel targets (R129). -/
def ZoneState.isLow : ZoneState → Bool
  | .lowering => true
  | .down => true
  | .up => false
  | .rising => false
  | .stuckLow => false

/-- R129, R146: the target height of a corner. -/
def LuRec.cornerTarget (lu : LuRec) (k : Corner) : Int :=
  let z := lu.zone (zoneOf k)
  if z.state.isLow then
    if doorSide k then -(z.target : Int) else rdiv (-(z.target : Int)) 4
  else rideTarget lu.ride

/-- R148: a door-side corner has reached its kneel target. -/
def CornerRec.reached (c : CornerRec) : Bool :=
  c.bottomed || c.mode == .failed ||
    (c.mode != .frozen && match c.reported with
      | some h => decide (absN (h - c.target) ≤ 8)
      | none => false)

/-- R153: a corner has arrived at its ride-level target. -/
def CornerRec.arrived (ride : RideLevel) (c : CornerRec) : Bool :=
  c.mode == .failed ||
    (c.mode != .frozen && match c.reported with
      | some h => decide (absN (rideTarget ride - h) ≤ 6)
      | none => false)

def LuRec.allReached (lu : LuRec) (z : Zone) : Bool := (doorCorners z).all fun k => (lu.corners.get k).reached
def LuRec.allArrived (lu : LuRec) (z : Zone) : Bool := (zoneCorners z).all fun k => (lu.corners.get k).arrived lu.ride

/-- R132: the deadband of a corner. -/
def deadband (m : CornerMode) (v : SpeedState) : Nat :=
  match m with
  | .kneel => 6
  | .ride => if v = .standstill then 6 else 12
  | .frozen => 12
  | .failed => 12

/-! ## Participants and the interlock table -/

/-- The PT rows with their numbers, in row order. -/
def State.rows (s : State) : List (Nat × PtCfg × PtVol) := (List.range' 1 16).zip (s.cfg.pt.zip s.pt)

/-- The in-use row with a link and a node id (R23). -/
def State.participant (s : State) (l : Link) (node : Nat) : Option (Nat × PtCfg) :=
  (s.rows.find? fun r => r.2.1.inUse && r.2.1.link == l && r.2.1.node == node).map fun r => (r.1, r.2.1)

/-- The volatile fields of row n. -/
def State.vol (s : State) (n : Nat) : PtVol := (nth s.pt n).getD .reset

/-- Row n is the driver console's. -/
def State.isConsole (s : State) (n : Nat) : Bool := (s.cfg.row n).map PtCfg.role == some .driverConsole

/-- A place is owed for a row (R30, R47): before the opening by the configured figure, in OPEN by the figure read. -/
def State.owes (s : State) (r : Nat × PtCfg × PtVol) : Bool :=
  match s.it.rollCall with
  | .awaiting => r.2.1.inUse && r.2.1.expected && !r.2.2.reported
  | .opened => r.2.1.inUse && r.2.2.expected && !r.2.2.reported
  | .closed => false

/-- The places owed, all of them and those owed to rows other than the driver console's (R30). -/
def State.placesOwed (s : State) : Nat := s.rows.countP s.owes
def State.placesOwedOthers (s : State) : Nat := s.rows.countP fun r => s.owes r && r.2.1.role != .driverConsole

/-- The entries of owners other than the driver console (R30). -/
def State.otherEntries (s : State) : Nat := s.it.entries.countP fun e => !s.isConsole e.owner

/-- R30: a creation for an owner has its place. -/
def State.hasPlace (s : State) (owner : Nat) : Bool :=
  decide (s.it.entries.length + 1 + s.placesOwed ≤ 24) &&
    (s.isConsole owner || decide (s.otherEntries + 1 + s.placesOwedOthers ≤ 22))

/-- The owner's entry with a tag (R29). -/
def State.findEntry (s : State) (owner tag : Nat) : Option Entry :=
  s.it.entries.find? fun e => e.owner == owner && e.tag == tag

/-- R37: a DOOR or RAMP entry whose opening is OPENING or OPEN. -/
def Entry.isOpen (e : Entry) : Bool := e.opening == some .opening || e.opening == some .opened

/-- R28: the mandatory effects of a kind. -/
def mandatory : Kind → Effects
  | .door => { stopBrake := true, driveInhibit := true, keepLow := false, levelFreeze := false, tagCentre := false }
  | .ramp => { stopBrake := true, driveInhibit := true, keepLow := true, levelFreeze := false, tagCentre := false }
  | .kneel => { stopBrake := true, driveInhibit := true, keepLow := false, levelFreeze := false, tagCentre := false }
  | .hold => { stopBrake := true, driveInhibit := false, keepLow := false, levelFreeze := false, tagCentre := false }
  | .service => { stopBrake := true, driveInhibit := true, keepLow := false, levelFreeze := false, tagCentre := false }

/-- R28: the optional effects of a kind. -/
def optionals : Kind → Effects
  | .door => { stopBrake := false, driveInhibit := false, keepLow := true, levelFreeze := false, tagCentre := false }
  | .ramp => { stopBrake := false, driveInhibit := false, keepLow := false, levelFreeze := false, tagCentre := true }
  | .kneel => { stopBrake := false, driveInhibit := false, keepLow := false, levelFreeze := false, tagCentre := false }
  | .hold => { stopBrake := false, driveInhibit := true, keepLow := false, levelFreeze := false, tagCentre := false }
  | .service => { stopBrake := false, driveInhibit := false, keepLow := false, levelFreeze := true, tagCentre := true }

/-- R28: the roles that may assert a kind. -/
def mayAssert : Kind → Role → Bool
  | .door, r => r == .doorNode
  | .ramp, r => r == .rampNode
  | .kneel, r => r == .rampNode || r == .driverConsole || r == .serviceTool
  | .hold, r => r == .driverConsole || r == .vehicleComputer || r == .serviceTool
  | .service, r => r == .serviceTool

def Effects.none : Effects :=
  { stopBrake := false, driveInhibit := false, keepLow := false, levelFreeze := false, tagCentre := false }

/-- Two sets of effects combined effect by effect. -/
def Effects.zipWith (f : Bool → Bool → Bool) (a b : Effects) : Effects :=
  { stopBrake := f a.stopBrake b.stopBrake, driveInhibit := f a.driveInhibit b.driveInhibit, keepLow := f a.keepLow b.keepLow
    levelFreeze := f a.levelFreeze b.levelFreeze, tagCentre := f a.tagCentre b.tagCentre }

def Effects.union (a b : Effects) : Effects := a.zipWith (· || ·) b
def Effects.inter (a b : Effects) : Effects := a.zipWith (· && ·) b
def Effects.diff (a b : Effects) : Effects := a.zipWith (fun x y => x && !y) b

/-- What a grant turns on, as its owners hold it (R32). -/
def State.grantView (s : State) : GrantView :=
  { rollCall := s.it.rollCall, speed := s.motion.speedState, hold := s.shc.state, riseReserve := s.sam.riseReserve
    frontFailed := s.lu.zoneFailed .front, rearFailed := s.lu.zoneFailed .rear }

/-- R32: the first grant condition of an entry that fails, or none when it is to be granted. -/
def GrantView.fails (v : GrantView) (kind : Kind) (zone : EntryZone) : Option Reason :=
  if v.rollCall ≠ .closed then some .rollCall
  else if kind = .hold then none
  else if v.speed ≠ .standstill then some .notStandstill
  else if v.hold ≠ .established then some .holdNotEstablished
  else if kind ≠ .kneel then none
  else if v.riseReserve = false then some .airReserve
  else if (covers zone .front && v.frontFailed) || (covers zone .rear && v.rearFailed) then some .zoneFailed
  else none

/-- The state an examination gives an entry (R32, R35): ACTIVE stays ACTIVE. -/
def GrantView.examined (v : GrantView) (e : Entry) : EntryState :=
  match e.state with
  | .active => .active
  | .pending _ =>
    match v.fails e.kind e.zone with
    | none => .active
    | some r => .pending r

def State.grantFails (s : State) (kind : Kind) (zone : EntryZone) : Option Reason := s.grantView.fails kind zone

/-- Whether a change is one between two views. -/
def GrantSignal.differs (i : GrantSignal) (a b : GrantView) : Bool :=
  match i with
  | .speed => a.speed != b.speed
  | .hold => a.hold != b.hold
  | .rise => a.riseReserve != b.riseReserve
  | .zone .front => a.frontFailed != b.frontFailed
  | .zone .rear => a.rearFailed != b.rearFailed

/-- The view `a` after the request handler has been given one change, its figure from `b`. -/
def GrantSignal.take (i : GrantSignal) (a b : GrantView) : GrantView :=
  match i with
  | .speed => { a with speed := b.speed }
  | .hold => { a with hold := b.hold }
  | .rise => { a with riseReserve := b.riseReserve }
  | .zone .front => { a with frontFailed := b.frontFailed }
  | .zone .rear => { a with rearFailed := b.rearFailed }

/-- The changes between two views. -/
def GrantView.changed (a b : GrantView) : List GrantSignal :=
  [GrantSignal.speed, .hold, .zone .front, .zone .rear, .rise].filter fun i => i.differs a b

/-! ## The effective restraint record (chapter 4) -/

def Entry.forResolver (e : Entry) : RrEntry :=
  { kind := e.kind, zone := e.zone, effects := e.effects, active := e.state == .active, orphaned := e.orphaned
    depth := e.depth, opening := e.opening }

def ZoneRec.forResolver (z : ZoneRec) : RrZone := { state := z.state, override := z.override, incomplete := z.incomplete }

/-- A channel's state as the resolver reads it (R3, R9): an unfitted channel does not contribute. -/
def State.chanForResolver (s : State) (c : Chan) : ChanState :=
  if (s.cfg.calib.get c).fitted then (s.chans.get c).st.getD .valid else .valid

/-- The inputs of the restraint resolver as their owners hold them (4.1). -/
def State.rrInputs (s : State) : RrIn :=
  { entries := s.it.entries.map Entry.forResolver, rollCall := s.it.rollCall, front := s.lu.front.forResolver
    rear := s.lu.rear.forResolver, hold := s.shc.state, creep := s.shc.creep, ceiling := s.shc.ceiling
    speed := s.motion.speedState, chans := .make s.chanForResolver, driven := .make fun a => (s.act.m.get a).driven
    modFailed := .make fun a => (s.act.m.get a).failed, valveFailed := .make fun k => (s.act.c.get k).failed
    dpFailed := s.act.dp.failed, dnFailed := s.act.dn.failed, tlFailed := s.act.tl.failed
    supplyLow := s.sam.supplyLow, holdOk := s.sam.holdOk, fillOk := s.sam.fillOk, riseReserve := s.sam.riseReserve
    tagFault := s.au.tag == .fault, foldLimit := s.au.foldLimit, torque := s.au.torque }

def activeWith (f : Effects → Bool) (e : RrEntry) : Bool := e.active && f e.effects

/-- R79: a DOOR or RAMP entry whose opening is OPENING or OPEN. -/
def RrEntry.isOpen (e : RrEntry) : Bool := e.opening == some .opening || e.opening == some .opened

/-- A zone that inhibits drive: LOWERING, DOWN or RISING, or STUCK_LOW without override (R76). -/
def RrZone.inhibits (z : RrZone) : Bool :=
  match z.state with
  | .up => false
  | .lowering => true
  | .down => true
  | .rising => true
  | .stuckLow => !z.override

/-- A zone that is STUCK_LOW with its override flag set (R75, R80). -/
def RrZone.overridden (z : RrZone) : Bool := z.state == .stuckLow && z.override

/-- The stop-hold states that inhibit drive (R76). -/
def HoldState.inhibits : HoldState → Bool
  | .applying => true
  | .established => true
  | .holdFault => true
  | .releaseWait => true
  | .off => false
  | .arming => false
  | .releasing => false

/-- The roll call is AWAITING or OPEN. -/
def RollCall.inProgress : RollCall → Bool
  | .awaiting => true
  | .opened => true
  | .closed => false

/-- R75. A zone that is not UP counts, but for one STUCK_LOW with its override flag set. -/
def RrIn.holdRequested (v : RrIn) : Bool :=
  v.entries.any (fun e => e.effects.stopBrake) || v.front.inhibits || v.rear.inhibits

/-- R76. -/
def RrIn.driveInhibit (v : RrIn) : Bool :=
  v.entries.any (activeWith Effects.driveInhibit) || v.front.inhibits || v.rear.inhibits ||
    v.rollCall.inProgress || v.hold.inhibits

/-- R77. -/
def RrIn.keepLow (v : RrIn) (z : Zone) : Bool :=
  v.entries.any fun e => activeWith Effects.keepLow e && covers e.zone z

/-- R77: the largest depth among the ACTIVE KNEEL entries covering the zone. -/
def RrIn.kneelDepth (v : RrIn) (z : Zone) : Nat :=
  (v.entries.filter fun e => e.active && e.kind == .kneel && covers e.zone z).foldl
    (fun d e => max d (e.depth.getD 0)) 0

/-- A DOOR or RAMP entry has an opening other than CLOSED (R79). -/
def RrIn.doorOpen (v : RrIn) : Bool := v.entries.any RrEntry.isOpen

/-- R80: the lowest limit demanded. -/
def RrIn.speedLimit (v : RrIn) : Option Nat :=
  if v.front.overridden ∨ v.rear.overridden then some 100
  else if v.chans.j = .failed then some 300
  else if v.tagFault then some 400
  else none

/-- R82: the kinds of the entries in the table. -/
def RrIn.kindSet (v : RrIn) : KindSet :=
  let has := fun k => v.entries.any fun e => e.kind == k
  { door := has .door, ramp := has .ramp, kneel := has .kneel, hold := has .hold, service := has .service }

/-- R82. -/
def RrIn.condSet (v : RrIn) : CondSet :=
  { rollCall := v.rollCall.inProgress
    kneelZone := v.front.inhibits || v.rear.inhibits
    stopHold := v.hold.inhibits
    zoneOverride := v.front.overridden || v.rear.overridden
    jointFailed := v.chans.j == .failed
    tagFault := v.tagFault
    foldLimit := v.foldLimit }

/-- The AMBER conditions (R84). -/
structure AmberSet where
  channel : Bool
  modulatorReleased : Bool
  supplyLow : Bool
  air : Bool
  creep : Bool
  kneelIncomplete : Bool
  orphaned : Bool
deriving DecidableEq, Repr

/-- An actuator channel has been failed by its coil check. -/
def RrIn.actuatorFailed (v : RrIn) : Bool :=
  allAxles.any (fun a => v.modFailed.get a) || allCorners.any (fun k => v.valveFailed.get k) ||
    v.dpFailed || v.dnFailed || v.tlFailed

/-- R84. -/
def RrIn.amberSet (v : RrIn) : AmberSet :=
  { channel := allChans.any (fun c => v.chans.get c != .valid) || v.actuatorFailed
    modulatorReleased := allAxles.any fun a => !v.driven.get a
    supplyLow := v.supplyLow
    air := !v.holdOk || !v.fillOk || !v.riseReserve
    creep := v.creep
    kneelIncomplete := v.front.incomplete || v.rear.incomplete || v.front.state == .stuckLow || v.rear.state == .stuckLow
    orphaned := v.entries.any RrEntry.orphaned }

def AmberSet.any (a : AmberSet) : Bool :=
  a.channel || a.modulatorReleased || a.supplyLow || a.air || a.creep || a.kneelIncomplete || a.orphaned

/-- The RED setting conditions in force (R85). -/
structure RedSet where
  doorAtSpeed : Bool
  creepCeiling : Bool
  holdFaultLong : Bool
  tagFault : Bool
deriving DecidableEq, Repr

def RrRec.redSet (r : RrRec) : RedSet :=
  { doorAtSpeed := r.doorAtSpeed, creepCeiling := r.view.ceiling, holdFaultLong := r.holdFaultLong, tagFault := r.view.tagFault }

def RedSet.any (r : RedSet) : Bool := r.doorAtSpeed || r.creepCeiling || r.holdFaultLong || r.tagFault

/-- R79: the door-at-speed flag after an event of the resolver. -/
def RrRec.doorFlag (r : RrRec) : Bool :=
  if r.view.speed = .moving ∧ r.view.doorOpen = true then true
  else if r.view.speed = .standstill ∨ r.view.doorOpen = false then false
  else r.doorAtSpeed

/-- R79, R85: the flag and the RED latch after an event of the resolver. -/
def RrRec.follow (r : RrRec) : RrRec :=
  let t := { r with doorAtSpeed := r.doorFlag }
  { t with redLatch := t.redLatch || t.redSet.any }

/-- R74: the record computed from the inputs the resolver has taken, its door-at-speed flag and its RED latch. -/
def RrRec.restraint (r : RrRec) : Restraint :=
  { holdRequested := r.view.holdRequested
    driveInhibit := r.view.driveInhibit
    keepLowFront := r.view.keepLow .front
    keepLowRear := r.view.keepLow .rear
    depthFront := r.view.kneelDepth .front
    depthRear := r.view.kneelDepth .rear
    levelFreeze := r.view.entries.any (activeWith Effects.levelFreeze)
    tagCentre := r.view.entries.any (activeWith Effects.tagCentre)
    doorAtSpeed := r.doorAtSpeed
    speedLimit := r.view.speedLimit
    torque := r.view.torque
    kinds := r.view.kindSet
    conds := r.view.condSet
    amber := r.view.amberSet.any
    red := r.redLatch }

/-! ### Taking one input -/

/-- The inputs one by one. -/
def allInputs : List RrInput :=
  [.table, .zone .front, .zone .rear, .hold, .creep, .ceiling, .speed, .dpFailed, .dnFailed, .tlFailed, .supplyLow,
    .holdOk, .fillOk, .riseReserve, .tagFault, .foldLimit, .torque] ++
  allChans.map RrInput.chan ++ allAxles.map RrInput.mode ++ allAxles.map RrInput.modFailed ++
  allCorners.map RrInput.valveFailed

/-- Whether an input differs between two views. -/
def RrInput.differs (i : RrInput) (a b : RrIn) : Bool :=
  match i with
  | .table => a.entries != b.entries || a.rollCall != b.rollCall
  | .zone .front => a.front != b.front
  | .zone .rear => a.rear != b.rear
  | .hold => a.hold != b.hold
  | .creep => a.creep != b.creep
  | .ceiling => a.ceiling != b.ceiling
  | .speed => a.speed != b.speed
  | .chan c => a.chans.get c != b.chans.get c
  | .mode x => a.driven.get x != b.driven.get x
  | .modFailed x => a.modFailed.get x != b.modFailed.get x
  | .valveFailed k => a.valveFailed.get k != b.valveFailed.get k
  | .dpFailed => a.dpFailed != b.dpFailed
  | .dnFailed => a.dnFailed != b.dnFailed
  | .tlFailed => a.tlFailed != b.tlFailed
  | .supplyLow => a.supplyLow != b.supplyLow
  | .holdOk => a.holdOk != b.holdOk
  | .fillOk => a.fillOk != b.fillOk
  | .riseReserve => a.riseReserve != b.riseReserve
  | .tagFault => a.tagFault != b.tagFault
  | .foldLimit => a.foldLimit != b.foldLimit
  | .torque => a.torque != b.torque

/-- A view with one input as another view has it. -/
def RrInput.take (i : RrInput) (a b : RrIn) : RrIn :=
  match i with
  | .table => { a with entries := b.entries, rollCall := b.rollCall }
  | .zone .front => { a with front := b.front }
  | .zone .rear => { a with rear := b.rear }
  | .hold => { a with hold := b.hold }
  | .creep => { a with creep := b.creep }
  | .ceiling => { a with ceiling := b.ceiling }
  | .speed => { a with speed := b.speed }
  | .chan c => { a with chans := a.chans.set c (b.chans.get c) }
  | .mode x => { a with driven := a.driven.set x (b.driven.get x) }
  | .modFailed x => { a with modFailed := a.modFailed.set x (b.modFailed.get x) }
  | .valveFailed k => { a with valveFailed := a.valveFailed.set k (b.valveFailed.get k) }
  | .dpFailed => { a with dpFailed := b.dpFailed }
  | .dnFailed => { a with dnFailed := b.dnFailed }
  | .tlFailed => { a with tlFailed := b.tlFailed }
  | .supplyLow => { a with supplyLow := b.supplyLow }
  | .holdOk => { a with holdOk := b.holdOk }
  | .fillOk => { a with fillOk := b.fillOk }
  | .riseReserve => { a with riseReserve := b.riseReserve }
  | .tagFault => { a with tagFault := b.tagFault }
  | .foldLimit => { a with foldLimit := b.foldLimit }
  | .torque => { a with torque := b.torque }

/-- The inputs of which a moment holds a figure that differs from the one the resolver has taken. -/
def RrRec.changed (r : RrRec) (moment : List RrIn) : List RrInput :=
  allInputs.filter fun i => moment.any fun v => i.differs r.view v

/-- R74: an input is taken from a moment: its figure after the first event that changed it. What is left holds that figure
at the events before too, so that each input goes through its own changes in their order and in any order with the others. -/
def RrInput.pass (i : RrInput) (view : RrIn) : List RrIn → RrIn × List RrIn
  | [] => (view, [])
  | v :: rest =>
    if i.differs view v then (i.take view v, v :: rest)
    else ((i.pass view rest).1, i.take v (i.pass view rest).1 :: (i.pass view rest).2)

/-- The resolver's memory after an input is taken from its oldest moment, which goes when nothing of it is left to take. -/
def RrRec.taken (r : RrRec) (i : RrInput) (moment : List RrIn) (rest : List (List RrIn)) : RrRec :=
  let p := i.pass r.view moment
  let t := { r with view := p.1 }
  { t with due := if t.changed p.2 = [] then rest else p.2 :: rest }

/-- The inputs as the resolver has been given them last, taken or not. -/
def RrRec.latest (r : RrRec) : RrIn := (r.noted.getLast?.or (r.due.getLast?.bind List.getLast?)).getD r.view

/-! ## Stop hold and brakes -/

/-- The hold target of an axle; A1's is 0 at all times (R91). -/
def ShcRec.target (h : ShcRec) : Axle → Nat
  | .a1 => 0
  | .a2 => h.target2
  | .a3 => h.target3
  | .a4 => h.target4

/-- R91: the fresh hold pressure. -/
def State.holdPressure (s : State) : Nat :=
  let top := min 700 s.cfg.pMax
  match s.chans.g.usable with
  | some g => min (250 + 3 * absN g) top
  | none => top

/-- R94: the mark of a target. -/
def holdMark (target : Nat) : Nat := rdivN (target * 900) 1000

/-- R94: an axle's B channel is VALID and at least at the mark. -/
def State.atMark (s : State) (a : Axle) : Bool :=
  match (s.chans.get (.b a)).validFigure with
  | some v => decide ((holdMark (s.shc.target a) : Int) ≤ v)
  | none => false

/-- Every held axle is at its mark (R94). -/
def State.heldAtMarks (s : State) : Bool := s.atMark .a2 && s.atMark .a3 && s.atMark .a4

/-- Every held target equals p_max (R98). -/
def State.targetsAtCeiling (s : State) : Bool :=
  s.shc.target2 == s.cfg.pMax && s.shc.target3 == s.cfg.pMax && s.shc.target4 == s.cfg.pMax

/-! ## Articulation unit -/

/-- R167: the centring causes that hold; the tag-centre field is that of the last published record (R160). -/
def State.centringCauses (s : State) : Causes :=
  { speed := s.motion.freshness == .fresh && decide (400 ≤ s.motion.speed)
    reverse := s.motion.gear == .reverse
    rearZone := s.lu.rear.state != .up
    tagCentre := s.rr.published.any Restraint.tagCentre
    speedUnknown := s.motion.speedState == .unknown
    joint := s.chans.j.usable == none }

def Causes.any (c : Causes) : Bool := c.speed || c.reverse || c.rearZone || c.tagCentre || c.speedUnknown || c.joint

/-! ## Links -/

def State.link (s : State) : Link → LinkRec
  | .chassis => s.chassis
  | .body => s.body

inductive LinkState where
  | errorActive
  | warning
  | passive
  | busOff
deriving DecidableEq, Repr

/-- R192: the link state follows the counts. -/
def linkState (tx rx : Nat) : LinkState :=
  if 255 < tx then .busOff
  else if 128 ≤ tx ∨ 128 ≤ rx then .passive
  else if 96 ≤ tx ∨ 96 ≤ rx then .warning
  else .errorActive

def LinkRec.state (l : LinkRec) : LinkState := linkState l.txErrors l.rxErrors
def LinkRec.isOff (l : LinkRec) : Bool := l.state == .busOff

end Sys2Proof.Machine
end

