-- ==== Sys2Proof/Machine/Status.lean ====
section
/-! DEFINITION. What the part puts on a link: the content of each status page (11.5) and the frame a slot's item is
sent as (R186, R194). R194 lists what each page carries and not where in its 16 bytes, so a page is kept as its
figures; likewise the channel report of a diagnostic reply. -/
namespace Sys2Proof.Machine

/-- One axle on pages 5 and 6: the fields of the brake record, the modulator's mode and its readback. R124 has every field
of the record carried and 6.1 counts the modulator's release request among them, so it stands beside the others although
the actuator channel holds it (DESIGN CHOICE, log entry 45). -/
structure AxleStatus where
  record : AxleRec
  release : Bool
  driven : Bool
  readback : Option Int
deriving DecidableEq, Repr

/-- One corner on pages 7 to 10. -/
structure CornerStatus where
  record : CornerRec
  reported : Option Int
  driven : Bool
  readback : Valve
  heightState : Option ChanState
deriving DecidableEq, Repr

/-- One zone on page 11, with the time remaining of its timer (8.1). -/
structure ZoneStatus where
  record : ZoneRec
  remaining : Option Nat
deriving DecidableEq, Repr

/-- One link on page 14. -/
structure LinkStatus where
  state : LinkState
  txErrors : Nat
  rxErrors : Nat
  overruns : Nat
  lost : Nat
deriving DecidableEq, Repr

/-- The content of the status pages (11.5). -/
inductive StatusPage where
  | tables (cause : Option ResetCause) (resets : Nat) (rollCall : RollCall) (total others orphaned pending : Nat)
      (refusal : Option Nat) (commits : Nat)
  | participants (rows : List (Nat × Presence × Bool))
  | motion (freshness : Freshness) (speedState : SpeedState) (speed brake accel : Nat) (gear : Gear) (refused repeated : Nat)
  | supply (record : SamRec) (trip restore : Nat) (restoreRun : Option Nat) (amber : AmberSet) (redLatch : Bool) (red : RedSet)
      (line : Line) (amberLamp redLamp spare : Lamp)
  | hold (state : HoldState) (target2 target3 target4 : Nat) (creep ceiling : Bool) (decel bias : Nat)
  | axles (first second : AxleStatus)
  | corners (first second : CornerStatus)
  | zones (front rear : ZoneStatus) (ride : RideLevel) (cause : RideCause) (errorSum : Nat) (levelFlag : Bool)
  | articulation (au : AuRec) (tag : Option Int) (tagState : Option ChanState) (wheel dp dn ts : Option Int) (lock : Lock)
  | channels (rows : List (Option ChanState × Bool))
  | links (chassis body : LinkStatus)
deriving DecidableEq, Repr

def State.axleStatus (s : State) (a : Axle) : AxleStatus :=
  { record := s.bdu.axles.get a, release := (s.act.m.get a).release, driven := (s.act.m.get a).driven, readback := s.modulatorReadback a }

def State.cornerStatus (s : State) (k : Corner) : CornerStatus :=
  { record := s.lu.corners.get k, reported := (s.lu.corners.get k).reported, driven := (s.act.c.get k).driven
    readback := valveReadback (s.act.c.get k), heightState := (s.heightChan k).st }

def State.zoneStatus (s : State) (z : Zone) : ZoneStatus :=
  { record := s.lu.zone z, remaining := (s.lu.zone z).timer.map fun d => d - s.now }

def LinkRec.status (l : LinkRec) : LinkStatus :=
  { state := l.state, txErrors := l.txErrors, rxErrors := l.rxErrors, overruns := l.overruns, lost := l.lost }

/-- The number of entries that are PENDING. -/
def State.pendingEntries (s : State) : Nat := s.it.entries.countP fun e => e.state != .active

/-- R46, 11.5: a status page as it stands when it is sent. R17 has every readback reported in the status notice; those for
which R194's table names no page stand with their units: the drive-inhibit line, the telltales and the spare on page 3,
TS and TL on page 12. R174 has every field of the joint damping and tag steering records carried, so page 12 shows the
whole of them, the last forward limit among them, and with them the model's own `seeded`; page 3 shows the supply record
with the model's own `sampled` (DESIGN CHOICE, log entry 45). -/
def State.statusPage (s : State) (page : Nat) : StatusPage :=
  match page with
  | 0 => .tables s.resetCause s.resetCount s.it.rollCall s.it.entries.length s.otherEntries
      (s.it.entries.countP Entry.orphaned) s.pendingEntries s.store.refusal s.store.commits
  | 1 => .participants ((s.rows.filter fun r => r.2.1.inUse).map fun r => (r.1, r.2.2.presence, r.2.2.reported))
  | 2 => .motion s.motion.freshness s.motion.speedState s.motion.speed s.motion.brake s.motion.accel s.motion.gear
      s.motion.refused s.motion.repeated
  | 3 => .supply s.sam s.cfg.thr.trip (s.cfg.thr.trip + 5) (s.sam.restoreTimer.map fun d => s.now + 200 - d)
      s.rrInputs.amberSet s.rr.redLatch s.rr.redSet (lineReadback s.act.line) (lampReadback s.act.amber) (lampReadback s.act.red)
      spareReadback
  | 4 => .hold s.shc.state s.shc.target2 s.shc.target3 s.shc.target4 s.shc.creep s.shc.ceiling s.bdu.target s.bdu.bias
  | 5 => .axles (s.axleStatus .a1) (s.axleStatus .a2)
  | 6 => .axles (s.axleStatus .a3) (s.axleStatus .a4)
  | 7 => .corners (s.cornerStatus .a1L) (s.cornerStatus .a1R)
  | 8 => .corners (s.cornerStatus .a2L) (s.cornerStatus .a2R)
  | 9 => .corners (s.cornerStatus .a3L) (s.cornerStatus .a3R)
  | 10 => .corners (s.cornerStatus .a4L) (s.cornerStatus .a4R)
  | 11 => .zones (s.zoneStatus .front) (s.zoneStatus .rear) s.lu.ride s.lu.cause s.lu.errorSum s.lu.levelFlag
  | 12 => .articulation s.au s.chans.t.value s.chans.t.st s.chans.s.value (dampingReadback s.chans.d1 s.chans.d2)
      (dampingReadback s.chans.d3 s.chans.d4) s.tagReadback (lockReadback s.act.tl)
  | 13 => .channels (allChans.map fun c => ((s.chans.get c).st, (s.chans.get c).wasOut))
  | _ => .links s.chassis.status s.body.status

/-- The data field of a frame the part sends: its bytes where R194 lays them out; a diagnostic reply's first seven
bytes with its report, and a status page as its figures, both in 16 bytes (R186, R194). -/
inductive FrameBody where
  | bytes (data : List Byte)
  | diagnostic (head : List Byte) (report : ReplyTail)
  | status (page : StatusPage)
deriving DecidableEq, Repr

/-- R186: the data length of a frame. -/
def FrameBody.length : FrameBody → Nat
  | .bytes data => data.length
  | .diagnostic _ _ => 16
  | .status _ => 16

/-- A frame as the part sends it. -/
structure SentFrame where
  ident : Ident
  length : Nat
  body : FrameBody
deriving DecidableEq, Repr

/-- The data field of a reply (11.5). -/
def replyBody (r : Reply) : FrameBody :=
  match r.tail with
  | .none => .bytes (replyHead r ++ zeros 9)
  | .summary s => .bytes (replyHead r ++ summaryBytes s)
  | .releaseAll n m => .bytes (replyHead r ++ [byteOf n, byteOf m] ++ zeros 7)
  | .report n m t => .bytes (replyHead r ++ [byteOf n, byteOf m, stayedByte t] ++ zeros 6)
  | .redConditions a b c d => .bytes (replyHead r ++ [byteOf (bitsOf [a, b, c, d])] ++ zeros 8)
  | .parameter i => .bytes (replyHead r ++ twoBytes i ++ zeros 7)
  | .channel c => .diagnostic (replyHead r) (.channel c)
  | .actuator a => .diagnostic (replyHead r) (.actuator a)

/-- R194: the data field of an item. -/
def State.bodyOf (s : State) : TxItem → FrameBody
  | .restraint r n => .bytes (restraintBytes r n)
  | .reply r => replyBody r
  | .notice n => .bytes (noticeBytes n)
  | .status p => .status (s.statusPage p)

/-- R186, R190: the identifier of an item's frame. A notice and a status page go to all nodes, a reply to its requester. -/
def TxItem.ident : TxItem → Ident
  | .restraint _ _ => identOf 0 32 0 0
  | .reply r => identOf 1 17 r.dest 0
  | .notice (.entryState _ _) => identOf 2 33 0 0
  | .notice (.rollCall _ _) => identOf 2 34 0 0
  | .status p => identOf 3 48 0 p

/-- R186, R194: the frame an item is sent as. -/
def State.frameOf (s : State) (i : TxItem) : SentFrame := { ident := i.ident, length := (s.bodyOf i).length, body := s.bodyOf i }

end Sys2Proof.Machine
end

