-- ==== Sys2Proof/Machine/Ops.lean ====
section
/-! DEFINITION. The operations the commands share: the clock and the timers, placing replies, notices and restraint
notices on the links (R189 to R191), the re-examination of the interlock table (R33), the stop hold's changes of
state (chapter 5), corner modes and kneel zones (chapters 7 and 8), the centring causes (R167), the signals of a
change of speed state (R14), the signal to the restraint resolver and the publication of the effective restraint record (R74). -/
namespace Sys2Proof.Machine

/-! ## Clock, timers, service -/

/-- The time is at least `t`: a timer's expiry says that its moment has come. -/
def State.reach (s : State) (t : Nat) : State := { s with now := max s.now t }

/-- What an expiry does when its timer is running; a stopped timer does not expire. -/
def atExpiry (t : Timer) (s : State) (f : Nat → State → State) : State :=
  match t with
  | none => s
  | some due => f due (s.reach due)

/-- A step that only a part in service takes. Before that it does not arise and leaves the state as it is. -/
def whenInService (s : State) (f : State → State) : Host.Outcome State Fault Refusal :=
  .next (if s.service = .inService then f s else s)

/-- Two reactions that meet at one moment and that the manual lets be taken in either order: when the order matters,
a free value decides it. -/
def eitherOrder (f g : State → State) (s : State) : State :=
  let a := g (f s)
  let b := f (g s)
  if a = b then a
  else if Config.firstTakenFirst s.draws then { a with draws := s.draws + 1 }
  else { b with draws := s.draws + 1 }

/-- A list with one element put in at every place. -/
def insertions {α : Type} (x : α) : List α → List (List α)
  | [] => [[x]]
  | y :: l => (x :: y :: l) :: (insertions x l).map (y :: ·)

/-- The orders in which the elements of a list can come. -/
def orders {α : Type} : List α → List (List α)
  | [] => [[]]
  | x :: l => (orders l).flatMap (insertions x)

/-- One of the outcomes that the orders of events of one moment give; where they differ, a free value decides it. -/
def oneOf (outcomes : List State) (s : State) : State :=
  match outcomes with
  | [] => s
  | a :: rest =>
    if rest.all (fun b => b = a) then a
    else { (a :: rest).getD (Config.orderTaken s.draws % (rest.length + 1)) a with draws := s.draws + 1 }

/-! ## Link controllers -/

/-- R189: a reply joins the reply queue; one placed for a link in BUS_OFF is discarded. -/
def LinkRec.placeReply (r : Reply) (l : LinkRec) : LinkRec :=
  if l.isOff then l else { l with replies := l.replies ++ [r] }

/-- R189: a reply placed without a request of its own is discarded when the queue is full. -/
def LinkRec.placeReplyIfRoom (r : Reply) (l : LinkRec) : LinkRec :=
  if l.replies.length < 8 then l.placeReply r else l

/-- R191: the subject of an entry-state notice is its entry's sequence number, that of a ROLL_CALL notice the roll call. -/
def Notice.sameSubject : Notice → Notice → Bool
  | .entryState a _, .entryState b _ => a.seq == b.seq
  | .rollCall _ _, .rollCall _ _ => true
  | .entryState _ _, .rollCall _ _ => false
  | .rollCall _ _, .entryState _ _ => false

def NoticeCauses.union (a b : NoticeCauses) : NoticeCauses :=
  { creation := a.creation || b.creation, grant := a.grant || b.grant, pendingReason := a.pendingReason || b.pendingReason
    fieldChange := a.fieldChange || b.fieldChange, orphaning := a.orphaning || b.orphaning
    adoption := a.adoption || b.adoption, retirement := a.retirement || b.retirement }

/-- R191: a replacing notice keeps every cause of the notice it replaces. -/
def Notice.replacing (new old : Notice) : Notice :=
  match new, old with
  | .entryState s c, .entryState _ d => .entryState s (d.union c)
  | .entryState s c, .rollCall _ _ => .entryState s c
  | .rollCall w n, _ => .rollCall w n

/-- A slot in which a notice with the same subject waits. -/
def Slot.waitsWith (n : Notice) : Slot → Bool
  | .waiting (.notice m) => n.sameSubject m
  | _ => false

def Slot.replaceNotice (n : Notice) : Slot → Slot
  | .waiting (.notice m) => .waiting (.notice (n.replacing m))
  | x => x

/-- R191: a notice replaces one with its subject in the list or in a waiting slot, else joins the end of the list of 32;
the oldest notice of a full list is removed and counted. -/
def LinkRec.placeNotice (n : Notice) (l : LinkRec) : LinkRec :=
  if l.isOff then l
  else if l.notices.any n.sameSubject then
    { l with notices := l.notices.map fun m => if n.sameSubject m then n.replacing m else m }
  else if l.slot1.waitsWith n then { l with slot1 := l.slot1.replaceNotice n }
  else if l.slot2.waitsWith n then { l with slot2 := l.slot2.replaceNotice n }
  else if l.slot3.waitsWith n then { l with slot3 := l.slot3.replaceNotice n }
  else if l.notices.length < 32 then { l with notices := l.notices ++ [n] }
  else { l with notices := l.notices.tail ++ [n], lost := satSucc 255 l.lost }

/-- R190, R191: the next item for a free slot: the head of the reply queue, else the oldest notice, else a page that is due.
Of the pages due one displaced from a slot comes first, since it was taken before the page of the count; the page count
advances when the page it names is placed, and not when a displaced page is placed again. -/
def LinkRec.nextItem (l : LinkRec) : Option (TxItem × LinkRec) :=
  match l.replies with
  | r :: rest => some (.reply r, { l with replies := rest })
  | [] =>
    match l.notices with
    | n :: rest => some (.notice n, { l with notices := rest })
    | [] =>
      match l.returned with
      | p :: rest => some (.status p, { l with returned := rest })
      | [] => if l.due then some (.status l.nextPage, { l with due := false, nextPage := (l.nextPage + 1) % 15 }) else none

def LinkRec.fill1 (l : LinkRec) : LinkRec :=
  match l.slot1, l.nextItem with
  | .free, some (i, r) => { r with slot1 := .waiting i }
  | _, _ => l

def LinkRec.fill2 (l : LinkRec) : LinkRec :=
  match l.slot2, l.nextItem with
  | .free, some (i, r) => { r with slot2 := .waiting i }
  | _, _ => l

def LinkRec.fill3 (l : LinkRec) : LinkRec :=
  match l.slot3, l.nextItem with
  | .free, some (i, r) => { r with slot3 := .waiting i }
  | _, _ => l

/-- R190: the free slots are filled, lowest index first. -/
def LinkRec.fill (l : LinkRec) : LinkRec := if l.isOff then l else l.fill1.fill2.fill3

/-! ## LIST frames (R61, R189) -/

def KeptSet.none : KeptSet := { kind := false, zone := false, effects := false, depth := false, opening := false }

/-- A reply to a request with nothing yet in it. Its last-frame mark is clear, and stays so in every reply but the last frame
of a LIST (DESIGN CHOICE, log entry 47). -/
def replyTo (dest request ref : Nat) (code : ReplyCode) : Reply :=
  { dest := dest, request := request, ref := ref, code := code
    marks := { clamped := false, adopted := false, notClosed := false, notFound := false, alreadyClosed := false
               abandoned := false, last := false }
    kept := .none, total := 0, tail := .none }

/-- R61: a frame of a LIST reply; the last carries the total. -/
def listReply (dest ref total : Nat) (last : Bool) (entry : Option Summary) : Reply :=
  let r := replyTo dest reqList ref .done
  { r with
    marks := { r.marks with last := last }
    total := if last then total else 0
    tail := match entry with
      | some e => .summary e
      | none => .none }

/-- R61: the context that remains after a frame. -/
def listRest (dest ref total : Nat) (rest : List Summary) : Option ListCtx :=
  if rest.isEmpty then none else some { dest := dest, ref := ref, total := total, rest := rest }

/-- R61: the next frame of a context is placed when the reply queue has room: at a LIST_FRAME command while places are free
(DESIGN CHOICE, log entry 36), and at the event itself that frees a place (R189). -/
def LinkRec.placeListFrame (l : LinkRec) : LinkRec :=
  match l.listCtx with
  | none => l
  | some c =>
    match c.rest with
    | [] => { l with listCtx := none }
    | e :: rest =>
      if l.replies.length < 8 then
        ({ l with listCtx := listRest c.dest c.ref c.total rest }).placeReply (listReply c.dest c.ref c.total rest.isEmpty (some e))
      else l

/-- R189: a LIST frame that waits takes the place that came free in a reply queue of `before` replies. The event is a frame
sent, which places no abandonment reply. -/
def LinkRec.listTakes (before : Nat) (l : LinkRec) : LinkRec :=
  if l.listCtx.isSome ∧ l.replies.length < before then l.placeListFrame.fill else l

/-! ## Restraint notices, offers and BUS_OFF (R83, R190 to R193) -/

def Slot.holdsRestraint : Slot → Bool
  | .waiting (.restraint _ _) => true
  | _ => false

def Slot.isFree : Slot → Bool
  | .free => true
  | _ => false

/-- How readily a restraint notice takes a slot: 0 for one it cannot take, else the class of what waits there plus 1. -/
def Slot.rank : Slot → Nat
  | .waiting i => i.cls + 1
  | _ => 0

/-- How many pages have been taken after page `p` when page `next` is the next in turn. -/
def pageAge (next p : Nat) : Nat := (next + 14 - p) % 15

/-- R191: a page due again takes its turn among the others that are: the one taken earliest goes first. -/
def insertPage (next p : Nat) : List Nat → List Nat
  | [] => [p]
  | q :: rest => if pageAge next q < pageAge next p then p :: q :: rest else q :: insertPage next p rest

/-- R190: a displaced item goes back to where it came from; the tail of a queue or list that this overfills is removed. -/
def LinkRec.giveBack (x : Slot) (l : LinkRec) : LinkRec :=
  match x with
  | .waiting (.reply r) => { l with replies := (r :: l.replies).take 8 }
  | .waiting (.notice n) =>
    { l with notices := (n :: l.notices).take 32, lost := if l.notices.length < 32 then l.lost else satSucc 255 l.lost }
  | .waiting (.status p) => { l with returned := insertPage l.nextPage p l.returned }
  | .waiting (.restraint _ _) => l
  | .free => l
  | .sending _ => l

/-- R83, R190: a restraint notice replaces a waiting one, else takes a free slot, else the waiting slot with the highest
class, the highest index among equal classes. Of several free slots it takes that of the lowest index, as R190 fills them
for the other frames (DESIGN CHOICE, log entry 37). -/
def LinkRec.placeRestraint (i : TxItem) (l : LinkRec) : LinkRec :=
  if l.isOff then l
  else if l.slot1.holdsRestraint then { l with slot1 := .waiting i }
  else if l.slot2.holdsRestraint then { l with slot2 := .waiting i }
  else if l.slot3.holdsRestraint then { l with slot3 := .waiting i }
  else if l.slot1.isFree then { l with slot1 := .waiting i }
  else if l.slot2.isFree then { l with slot2 := .waiting i }
  else if l.slot3.isFree then { l with slot3 := .waiting i }
  else if l.slot1.rank ≤ l.slot3.rank ∧ l.slot2.rank ≤ l.slot3.rank ∧ 0 < l.slot3.rank then
    { l.giveBack l.slot3 with slot3 := .waiting i }
  else if l.slot1.rank ≤ l.slot2.rank ∧ 0 < l.slot2.rank then { l.giveBack l.slot2 with slot2 := .waiting i }
  else if 0 < l.slot1.rank then { l.giveBack l.slot1 with slot1 := .waiting i }
  else l

/-- The item in transmission (R190). -/
def LinkRec.sending (l : LinkRec) : Option TxItem :=
  match l.slot1, l.slot2, l.slot3 with
  | .sending i, _, _ => some i
  | _, .sending i, _ => some i
  | _, _, .sending i => some i
  | _, _, _ => none

def Slot.startSending : Slot → Slot
  | .waiting i => .sending i
  | x => x

/-- R190: with no slot in transmission, the controller offers the bus the waiting frame of the lowest class, the lowest
index among equal classes. -/
def LinkRec.offer (l : LinkRec) : LinkRec :=
  if l.isOff ∨ l.sending.isSome then l
  else
    let key := fun (x : Slot) => if x.rank = 0 then 9 else x.rank
    if 0 < l.slot1.rank ∧ key l.slot1 ≤ key l.slot2 ∧ key l.slot1 ≤ key l.slot3 then { l with slot1 := l.slot1.startSending }
    else if 0 < l.slot2.rank ∧ key l.slot2 ≤ key l.slot3 then { l with slot2 := l.slot2.startSending }
    else if 0 < l.slot3.rank then { l with slot3 := l.slot3.startSending }
    else l

def Slot.freed : Slot → Slot
  | .sending _ => .free
  | x => x

/-- At the end of a frame sent without error its slot becomes free (R190). -/
def LinkRec.freeSent (l : LinkRec) : LinkRec :=
  { l with slot1 := l.slot1.freed, slot2 := l.slot2.freed, slot3 := l.slot3.freed }

/-- R193: what the entry into BUS_OFF empties; the count of recessive occurrences starts at 0. -/
def LinkRec.empty (l : LinkRec) : LinkRec :=
  { l with slot1 := .free, slot2 := .free, slot3 := .free, replies := [], notices := [], due := false, returned := [], listCtx := none
           recessive := 0 }

/-- R191: the page next in turn becomes due, unless one is due already or the link is in BUS_OFF. A page that waits in a
transmit slot is not one that is due, so the next becomes due beside it, and a page displaced from a slot can make two
(DESIGN CHOICE, log entry 38). -/
def LinkRec.pageDue (l : LinkRec) : LinkRec :=
  if l.isOff ∨ l.returned ≠ [] then l else { l with due := true }

def State.onLink (s : State) (l : Link) (f : LinkRec → LinkRec) : State :=
  match l with
  | .chassis => { s with chassis := f s.chassis }
  | .body => { s with body := f s.body }

def State.onBoth (s : State) (f : LinkRec → LinkRec) : State := { s with chassis := f s.chassis, body := f s.body }

/-- The free slots of both links are filled (R190). -/
def fillAll (s : State) : State := s.onBoth LinkRec.fill

/-! ## Entry-state notices -/

def NoticeCauses.none : NoticeCauses :=
  { creation := false, grant := false, pendingReason := false, fieldChange := false, orphaning := false, adoption := false, retirement := false }

/-- The entry summary (11.5). The owner's row is in use while it owns an entry (R25). -/
def State.summary (s : State) (e : Entry) (retired : Bool) : Summary :=
  let row := (s.cfg.row e.owner).getD unusedRow
  { seq := e.seq, link := row.link, node := row.node, tag := e.tag, kind := e.kind, zone := e.zone, effects := e.effects
    state := e.state, orphaned := e.orphaned, retired := retired, opening := e.opening, depth := e.depth }

/-- R36: notices are placed on both links. -/
def notify (ns : List Notice) (s : State) : State := s.onBoth fun l => ns.foldl (fun l n => l.placeNotice n) l

def State.retiredNotice (s : State) (e : Entry) : Notice :=
  .entryState (s.summary e true) { NoticeCauses.none with retirement := true }

/-! ## The restraint resolver's memory -/

/-- An event of the moment that is being made is over: if it has changed an input, the inputs as they stand join those of
the moment. An event that changes the interlock table is thereby handed on by itself (R45). -/
def rrNote (s : State) : State :=
  if s.rrInputs = s.rr.latest then s else { s with rr.noted := s.rr.noted ++ [s.rrInputs] }

/-- The inputs of the moment that has been made join those the resolver has still to take. -/
def RrRec.closeMoment (r : RrRec) : RrRec :=
  { r with noted := [], due := if r.noted = [] then r.due else r.due ++ [r.noted] }

/-- The signal to the resolver at the end of a command, after its last event: what its events have changed has happened at
one moment. Recomputing is an event of the resolver's own, which follows (R74). -/
def rrSignal (s : State) : State := { rrNote s with rr := (rrNote s).rr.closeMoment }

/-! ## Re-examination (R33) -/

/-- The cause an examination's outcome gives a notice (R33). -/
def examCauses (st : EntryState) : NoticeCauses :=
  match st with
  | .active => { NoticeCauses.none with grant := true }
  | .pending _ => { NoticeCauses.none with pendingReason := true }

/-- The entries as an examination under a view leaves them. -/
def State.reexamined (s : State) (v : GrantView) : List Entry := s.it.entries.map fun e => { e with state := v.examined e }

/-- The notices of an examination under a view, in table order: one for each grant and each changed pending reason. -/
def State.examNotices (s : State) (v : GrantView) : List Notice :=
  (s.it.entries.filter fun e => v.examined e != e.state).map fun e =>
    .entryState (s.summary { e with state := v.examined e } false) (examCauses (v.examined e))

/-- R33: every PENDING entry is examined, in table order, under what the request handler has been given. -/
def examineUnder (v : GrantView) (s : State) : State := notify (s.examNotices v) { s with it.entries := s.reexamined v }

/-- R33: every PENDING entry is examined under the figures of the moment. -/
def reexamine (s : State) : State := examineUnder s.grantView s

/-- R33, R45: changes reach the request handler one after the other, each with an examination of its own, which is handed on
to the resolver by itself. `v` is what it has been given before them. -/
def examineInOrder : List GrantSignal → GrantView → State → State
  | [], _, s => s
  | i :: rest, v, s =>
    let w := i.take v s.grantView
    examineInOrder rest w (rrNote (examineUnder w s))

/-- R33: the changes of one event since the view `before` reach the request handler, in any order (log entry 4). -/
def examineChanges (before : GrantView) (s : State) : State :=
  oneOf ((orders (before.changed s.grantView)).map fun o => examineInOrder o before s) s

/-! ## Stop hold -/

/-- A change of the stop hold's state: what the leaving and the entry stop and start (R92, R94, R97, R98, R86). -/
def shcEnter (st : HoldState) (s : State) : State :=
  let slide := st == .established && isSliding s.motion.speedState
  let ceil := slide && s.targetsAtCeiling
  { s with
    shc := { s.shc with
      state := st
      establishTimer := if st = .applying then some (s.now + 600) else none
      creep := slide
      ceiling := ceil
      creepTimer := if slide && !ceil then some (s.now + 300) else none
      standstillDue := false }
    rr := { s.rr with
      holdFaultTimer := if st = .holdFault then some (s.now + 3000) else none
      holdFaultLong := false } }

/-- A change of the stop hold's state with its signal to the request handler (R89), whose examination is an event that is
handed on by itself (R45). -/
def shcGo (st : HoldState) (s : State) : State := rrNote (reexamine (shcEnter st s))

/-- R92: each hold target at the fresh hold pressure. -/
def freshTargets (s : State) : State :=
  let p := s.holdPressure
  { s with shc := { s.shc with target2 := p, target3 := p, target4 := p } }

/-- R92: entry into APPLYING from OFF or ARMING, with the fresh hold pressure. -/
def shcApply (s : State) : State := shcGo .applying (freshTargets s)

/-- R92: entry into APPLYING from RELEASING, with the larger of each ramping figure and the fresh hold pressure. -/
def shcReapply (s : State) : State :=
  let p := s.holdPressure
  shcGo .applying
    { s with shc := { s.shc with target2 := max s.shc.target2 p, target3 := max s.shc.target3 p, target4 := max s.shc.target4 p } }

/-- R90, R103: hold requested, standstill and HOLD_OK hold together. -/
def State.mayApply (s : State) : Bool :=
  s.shc.holdRequested && s.motion.speedState == .standstill && s.sam.holdOk

/-- R101: the transition from ARMING to APPLYING that the SHC makes at a change to STANDSTILL. -/
def shcStops (s : State) : State := { shcApply s with shc.standstillTaken := true }

/-- R90: ARMING enters APPLYING at the change to STANDSTILL that completes the three conditions. -/
def shcArmed (s : State) : State := if s.shc.state = .arming ∧ s.mayApply = true then shcStops s else s

/-- R101: the SHC takes a change to STANDSTILL that the resolver was given first. -/
def shcDue (s : State) : State := if s.shc.standstillDue then shcArmed { s with shc.standstillDue := false } else s

/-- R101: the SHC leaves ARMING at a change to STANDSTILL. While the door brake acts on the published record, the
resolver's recomputation and the SHC's transition are taken in either order; in the second the transition is still due
(log entry 39). -/
def shcStandstill (s : State) : State :=
  if s.shc.state = .arming ∧ s.mayApply = true ∧ s.rr.published.any Restraint.doorAtSpeed = true then
    if Config.firstTakenFirst s.draws then { shcStops s with draws := s.draws + 1 }
    else { s with shc.standstillDue := true, draws := s.draws + 1 }
  else shcArmed s

/-- R97: the creep timer starts unless creep is at its ceiling. -/
def startCreepTimer (s : State) : State :=
  { s with shc.creepTimer := if s.shc.ceiling then none else some (s.now + 300) }

/-- R97, R98: creep under ESTABLISHED follows a change of speed state. -/
def creepFollow (s : State) : State :=
  match s.motion.speedState with
  | .standstill => { s with shc := { s.shc with creep := false, ceiling := false, creepTimer := none } }
  | .unknown => { s with shc.creepTimer := none }
  | .slow =>
    if s.shc.creep then (if s.shc.creepTimer.isSome then s else startCreepTimer s)
    else startCreepTimer { s with shc := { s.shc with creep := true, ceiling := s.targetsAtCeiling } }
  | .moving =>
    if s.shc.creep then (if s.shc.creepTimer.isSome then s else startCreepTimer s)
    else startCreepTimer { s with shc := { s.shc with creep := true, ceiling := s.targetsAtCeiling } }

/-- What the SHC does at a change of speed state (R90, R97). -/
def shcSpeed (s : State) : State :=
  match s.shc.state with
  | .arming => shcStandstill s
  | .established => creepFollow s
  | .off => s
  | .applying => s
  | .holdFault => s
  | .releaseWait => s
  | .releasing => s

/-! ## Articulation unit -/

/-- R167: the set of centring causes is updated, and a STEERING record with a cause enters CENTRING. -/
def auTake (s : State) : State :=
  let c := s.centringCauses
  if s.au.tag = .steering ∧ c.any = true then
    { s with au := { s.au with causes := c, tag := .centring, target := 0, clamp := false } }
  else { s with au.causes := c }

/-- R173, R174: the entry into FAULT, with the commands sent at it: the damping outputs as they stand, TS and TL; the lock
then holds and overrides TS (R19). The clamp flag becomes no at the entry, also between two periods, where R168 and R173 do not
speak of it (DESIGN CHOICE, log entry 53). -/
def tagFault (cause : FaultCause) (s : State) : State :=
  { s with
    au := { s.au with tag := .fault, fault := some cause, commanded := 0, target := 0, clamp := false }
    act := { s.act with
      dp := { s.act.dp with command := some s.au.dpOut }
      dn := { s.act.dn with command := some s.au.dnOut }
      tl := { s.act.tl with command := some .engaged }
      ts := { s.act.ts with command := some 0, overridden := true } } }

/-- A command to TL, with the override of TS that its readback then gives (R19). -/
def Actuators.commandTl (a : Actuators) (c : Lock) : Actuators :=
  let tl := { a.tl with command := some c }
  { a with tl := tl, ts := { a.ts with overridden := lockHolds tl } }

/-! ## Corners and zones -/

def State.setCorner (s : State) (k : Corner) (c : CornerRec) : State := { s with lu.corners := s.lu.corners.set k c }
def State.corner (s : State) (k : Corner) : CornerRec := s.lu.corners.get k
def State.setZone (s : State) (z : Zone) (r : ZoneRec) : State := { s with lu := s.lu.setZone z r }
def State.zone (s : State) (z : Zone) : ZoneRec := s.lu.zone z

/-- A command to a corner's valve pair between periods. -/
def State.commandValve (s : State) (k : Corner) (v : Valve) : State :=
  { s with act.c := s.act.c.set k { s.act.c.get k with command := some v } }

/-- A release request of a corner's valve pair. -/
def State.releaseValve (s : State) (k : Corner) (r : Bool) : State :=
  { s with act.c := s.act.c.set k { s.act.c.get k with release := r } }

/-- A corner's moving valve is commanded HOLD between periods, for a reason (R128, R135, R136). -/
def withdraw (reason : HoldReason) (s : State) (k : Corner) : State :=
  (s.setCorner k { s.corner k with valve := .hold, reason := some reason }).commandValve k .hold

/-- R127, R128: a corner's mode is derived again, and the LU acts at once on a change of it. -/
def enterMode (s : State) (k : Corner) : State :=
  let m := s.cornerMode k
  let c := s.corner k
  if m = c.mode then s
  else match m with
    | .failed => (s.setCorner k { c with mode := .failed, valve := .hold, reason := some .failed }).releaseValve k true
    | .frozen =>
      if c.valve = .hold then s.setCorner k { c with mode := .frozen, persist := 0 }
      else withdraw .freeze (s.setCorner k { c with mode := .frozen, persist := 0 }) k
    | .kneel => s.setCorner k { c with mode := .kneel }
    | .ride => s.setCorner k { c with mode := .ride, persist := 0 }

/-- R127, R128: the modes of some corners are derived again. -/
def deriveModes (ks : List Corner) (s : State) : State := ks.foldl enterMode s

/-- R128: the LU signals each change of whether a zone holds a FAILED corner, and the IT re-examines (R33). -/
def signalFailed (before : LuRec) (s : State) : State :=
  examineChanges { s.grantView with frontFailed := before.zoneFailed .front, rearFailed := before.zoneFailed .rear } s

/-- R129: the corners' targets are set anew. -/
def setTargets (ks : List Corner) (s : State) : State :=
  ks.foldl (fun s k => s.setCorner k { s.corner k with target := s.lu.cornerTarget k }) s

/-- R139: a corner captures its axle's load as it stands in the brake record. -/
def captureLoad (s : State) (k : Corner) : State :=
  let load := match (s.bdu.axles.get (axleOf k)).load with
    | some n => FrozenLoad.figure n
    | none => FrozenLoad.noFigure
  s.setCorner k { s.corner k with frozen := load }

/-- R140: a corner's frozen load is cleared when its zone is UP, level freeze is no and the corner is not bottomed. -/
def clearLoad (s : State) (k : Corner) : State :=
  if (s.zone (zoneOf k)).state = .up ∧ s.levelFreeze = false ∧ (s.corner k).bottomed = false then
    s.setCorner k { s.corner k with frozen := .absent }
  else s

/-- R153: the arrival at UP, with the return of the corners to RIDE, the clearing of their loads, and the signal to the AU. -/
def zoneUp (z : Zone) (s : State) : State :=
  let t := s.setZone z { s.zone z with state := .up, target := 0, override := false, moved := false, timer := none }
  auTake ((zoneCorners z).foldl clearLoad (deriveModes (zoneCorners z) (setTargets (zoneCorners z) t)))

/-- R148, R149, R153: a zone tests its corners. -/
def zoneTest (z : Zone) (s : State) : State :=
  match (s.zone z).state with
  | .up => s
  | .lowering => if s.lu.allReached z then s.setZone z { s.zone z with state := .down, timer := none } else s
  | .down => if s.lu.allReached z then s.setZone z { s.zone z with incomplete := false } else s
  | .rising => if s.lu.allArrived z then zoneUp z s else s
  | .stuckLow => if s.lu.allArrived z then zoneUp z s else s

/-- R147, R150: the entry into LOWERING. From UP the corners enter KNEEL and capture their loads. The entry is one change
of the resolver's inputs and an arrival at DOWN in the same command another (R74). -/
def zoneLower (z : Zone) (s : State) : State :=
  let wasUp := (s.zone z).state == .up
  let t := s.setZone z { s.zone z with
    state := .lowering, target := (s.zone z).depth, incomplete := false, override := false, timer := some (s.now + 6000) }
  let u := deriveModes (zoneCorners z) (setTargets (zoneCorners z) t)
  zoneTest z (rrNote (auTake (if wasUp then (zoneCorners z).foldl captureLoad u else u)))

/-- R152, R156: the entry into RISING, a change of the resolver's inputs apart from an arrival at UP (R74). -/
def zoneRise (z : Zone) (moved : Bool) (s : State) : State :=
  let t := s.setZone z { s.zone z with
    state := .rising, target := 0, incomplete := false, moved := (s.zone z).moved || moved, timer := some (s.now + 10000) }
  zoneTest z (rrNote (setTargets (zoneCorners z) t))

/-- R146: the target depth follows a changed depth in force. -/
def zoneRetarget (z : Zone) (timer : Timer) (s : State) : State :=
  zoneTest z (setTargets (zoneCorners z) (s.setZone z { s.zone z with target := (s.zone z).depth, timer := timer }))

/-- What a zone does at a change of speed state (R147, R150, R156). -/
def zoneSpeed (z : Zone) (s : State) : State :=
  match s.motion.speedState with
  | .slow => s
  | .unknown => s
  | .standstill =>
    match (s.zone z).state with
    | .lowering => s
    | .down => if (s.zone z).target < (s.zone z).depth then zoneLower z s else s
    | .up => if 0 < (s.zone z).depth then zoneLower z s else s
    | .rising => if 0 < (s.zone z).depth then zoneLower z s else s
    | .stuckLow => if 0 < (s.zone z).depth then zoneLower z s else s
  | .moving =>
    match (s.zone z).state with
    | .up => s
    | .lowering => zoneRise z true s
    | .down => zoneRise z true s
    | .rising => s.setZone z { s.zone z with moved := true }
    | .stuckLow => if (s.zone z).override then s else s.setZone z { s.zone z with moved := true }

/-- A corner of the zone has changed its mode. -/
def modesChanged (before after : LuRec) (z : Zone) : Bool :=
  (zoneCorners z).any fun k => (before.corners.get k).mode != (after.corners.get k).mode

/-- R127, R148, R153: the modes of some corners are derived again, and a zone of which one has changed is tested. -/
def cornersChanged (ks : List Corner) (s : State) : State :=
  let t := deriveModes ks s
  let u := if modesChanged s.lu t.lu .front then zoneTest .front t else t
  if modesChanged s.lu t.lu .rear then zoneTest .rear u else u

/-- R153: a zone on its way up tests its corners when their ride-level targets change. -/
def arrivalTest (z : Zone) (s : State) : State :=
  match (s.zone z).state with
  | .rising => zoneTest z s
  | .stuckLow => zoneTest z s
  | .up => s
  | .lowering => s
  | .down => s

/-- R130: a RIDE corner's error persistence time stands at its end when the ride level changes. R133 has a corner start from 0
at its first period in RIDE: for one that has entered RIDE and not yet had that period the 2000 ms stand (DESIGN CHOICE, log
entry 52). -/
def persistNow (s : State) (k : Corner) : State :=
  if (s.corner k).mode = .ride then s.setCorner k { s.corner k with persist := 2000 } else s

/-- R130, R131: a change of ride level sets the targets of the corners whose target is the ride-level target and the
persistence time of every RIDE corner, and a rising zone tests its corners. -/
def changeRide (level : RideLevel) (cause : RideCause) (s : State) : State :=
  let t := setTargets allCorners { s with lu := { s.lu with ride := level, cause := cause } }
  rrSignal (signalFailed s.lu (arrivalTest .rear (arrivalTest .front (allCorners.foldl persistNow t))))

/-! ## Signals of a change of speed state (R14) -/

/-- R14: a change of speed state is signalled to the SHC, the kneel zones, the AU, the request handler and the
resolver; an unchanged one raises no signal. The resolver's follows at the end of the command. A change that a zone's entry
makes to its FAILED corners reaches the request handler before or after the speed state (R33). -/
def speedSignal (v : SpeedState) (s : State) : State :=
  if v = s.motion.speedState then s
  else
    let t := auTake (zoneSpeed .rear (zoneSpeed .front (shcSpeed { shcDue s with motion.speedState := v, shc.standstillTaken := false })))
    examineChanges
      { t.grantView with
        speed := s.motion.speedState, frontFailed := s.lu.zoneFailed .front, rearFailed := s.lu.zoneFailed .rear } t

/-! ## Publication (R74) -/

/-- What a consumer not yet handed any record has taken: the fields of a record at their reset values (R88). -/
def handedBefore (prev : Option Restraint) : Bool × (Nat × Bool) × (Nat × Bool) × Bool × Bool :=
  match prev with
  | none => (false, (0, false), (0, false), false, false)
  | some r => (r.holdRequested, (r.depthFront, r.keepLowFront), (r.depthRear, r.keepLowRear), r.levelFreeze, r.tagCentre)

/-- A changed figure is handed to its consumer. -/
def handOn {α : Type} [DecidableEq α] (old new : α) (queue : List α) : List α := if old = new then queue else queue ++ [new]

/-- R83: a restraint notice is placed on each link that is not in BUS_OFF. -/
def restraintNotice (r : Restraint) (count : Nat) (s : State) : State := s.onBoth fun l => l.placeRestraint (.restraint r count)

/-- R74: the record is handed to its consumers, the line and the telltales are commanded, the change count advances and a
restraint notice is placed. The first publication after reset carries change count 0 (R88). -/
def publish (r : Restraint) (s : State) : State :=
  let old := handedBefore s.rr.published
  let count := match s.rr.published with
    | none => s.rr.count
    | some _ => (s.rr.count + 1) % 256
  restraintNotice r count
    { s with
      rr := { s.rr with
        published := some r
        count := count
        repeatTimer := some (s.now + 1000)
        toShc := handOn old.1 r.holdRequested s.rr.toShc
        toFront := handOn old.2.1 (r.depthFront, r.keepLowFront) s.rr.toFront
        toRear := handOn old.2.2.1 (r.depthRear, r.keepLowRear) s.rr.toRear
        toLu := handOn old.2.2.2.1 r.levelFreeze s.rr.toLu
        toAu := s.rr.toAu || old.2.2.2.2 != r.tagCentre }
      act := { s.act with
        line := { s.act.line with command := some (if r.driveInhibit then .asserted else .clear) }
        amber := { s.act.amber with command := some (if r.amber then .on else .off) }
        red := { s.act.red with command := some (if r.red then .on else .off) } } }

/-- R74: the whole record is recomputed from the inputs as the resolver has taken them, and published if any field differs
from the record last published. -/
def recompute (s : State) : State :=
  let t := { s with rr := s.rr.follow }
  if t.rr.published = some t.rr.restraint then t else publish t.rr.restraint t

/-- R74: the resolver takes one changed input of the oldest moment it has not wholly taken. Of several that changed at one
moment, which is next is a free value. -/
def takeInput (s : State) : State :=
  match s.rr.due with
  | [] => s
  | moment :: rest =>
    match s.rr.changed moment with
    | [] => { s with rr := { s.rr with due := rest } }
    | [i] => { s with rr := s.rr.taken i moment rest }
    | i :: more =>
      let k := (i :: more).getD (Config.inputTaken s.draws % (more.length + 1)) i
      { s with draws := s.draws + 1, rr := s.rr.taken k moment rest }

/-! ## Reset -/

/-- Every volatile record at the value its chapter gives for after every reset (R21, R26, R47, R73, R88, R106, R125,
R143, R159, R175, R181, R200); the clock, the supply's history, the reset cause record, the store's banks and the
waiting commands stay. -/
def State.volatileReset (s : State) : State :=
  { now := s.now, draws := s.draws, service := s.service, supply := s.supply, restart := none
    resetCause := s.resetCause, resetCount := s.resetCount, cfg := s.cfg, store := s.store.afterReset
    map := s.map, periods := .reset, chans := .make fun _ => .reset, motion := .reset, act := .reset
    pt := List.replicate 16 .reset, it := .reset, rr := .reset, shc := .reset, bdu := .reset, lu := .reset
    au := .reset, sam := .reset, pageTimer := none, chassis := .reset, body := .reset, pending := s.pending }

/-- The part is held in reset: every block stops and every volatile record is lost (R182). -/
def holdInReset (s : State) : State := { s.volatileReset with service := .held }

/-- R185 step 2: the resolver's first recomputation and publication, from the inputs' reset values, and the first status page with the start of the
page timer (R191). -/
def startUpPublish (s : State) : State :=
  let t := recompute s
  fillAll { t.onBoth LinkRec.pageDue with pageTimer := some (t.now + 50), service := .firstSample }

end Sys2Proof.Machine
end

