-- ==== Sys2Proof/Machine/Clock.lean ====
section
/-! DEFINITION. What a step does when no command waits: a millisecond of the part's clock passes, in which a link controller
whose bus is free offers a waiting frame or, in BUS_OFF, counts recessive occurrences, and a sag of the supply stops a
supply test (log entries 1, 6, 27 and 28). -/
namespace Sys2Proof.Machine

/-- R190: a link's controller offers a frame when its bus is free. When a bus is free is a free value. -/
def offerIfFree (now : Nat) (l : Link) (r : LinkRec) : LinkRec := if Config.busFree l now then r.offer else r

/-- R193: a link in BUS_OFF counts the occurrences of 11 consecutive recessive bits, up to the one that the command of
BUS_OFF_RECOVERY stands for. How many end in a millisecond is a free value. -/
def countRecessive (now : Nat) (l : Link) (r : LinkRec) : LinkRec :=
  if r.isOff then { r with recessive := min 127 (r.recessive + Config.recessiveRuns l now) } else r

/-- What a millisecond brings a link. -/
def linkTick (now : Nat) (l : Link) (r : LinkRec) : LinkRec := countRecessive now l (offerIfFree now l r)

/-- R182: a supply that sags below 9.5 V interrupts a 20 ms test that is running, which the next SUPPLY_RISE starts anew.
When it sags without reaching 9.0 V is a free value (log entry 28). -/
def sag (s : State) : Timer :=
  match s.supply.test with
  | none => none
  | some due => if s.now < due ∧ Config.supplySags s.now = true then none else some due

/-- One millisecond in which no command arrives. -/
def tick (s : State) : State :=
  let t := { s with now := s.now + 1 }
  match s.service with
  | .held => { t with supply.test := sag s }
  | .publish => t
  | .firstSample => t
  | .inService => { t with chassis := linkTick s.now .chassis s.chassis, body := linkTick s.now .body s.body }

/-- The waiting commands without the first. -/
def State.withPending (s : State) (q : List Instr) : State := { s with pending := q }

end Sys2Proof.Machine
end

