-- ==== Sys2Proof/Machine/Articulation.lean ====
section
/-! DEFINITION. The articulation unit (chapter 9): an articulation period, and a change of tag centre. -/
namespace Sys2Proof.Machine

/-! ## Joint damping (R162 to R165) -/

/-- R162: the base damping. At UNKNOWN speed it is the 850 that the rule's table gives, also after a commit that has changed
the table's highest figure (DESIGN CHOICE, log entry 34). -/
def baseDamping (known reverse : Bool) (table : Int) : Int :=
  if known then (if reverse then max table 600 else table) else 850

/-- R162: the joint limit. -/
def jointLimit (known reverse : Bool) (table last : Int) : Int :=
  if reverse then 300 else if known then table else last

/-- R163: the resisting output. -/
def resistOutput (base limit : Int) (size : Nat) : Int :=
  if limit - 30 ≤ size then min 1000 (base + rdiv ((size - (limit - 30)) * (1000 - base)) 30) else base

/-- R164: the torque limit. -/
def torqueLimit (limit : Int) (size : Nat) : Nat :=
  if limit ≤ size then (1000 - (size - limit) * 100).toNat else 1000

/-- R162: the speed basis, the reverse flag, the base damping, the joint limit and the last forward limit. -/
def State.jointFigures (s : State) : AuRec :=
  let known := s.motion.freshness == .fresh
  let reverse := s.motion.gear == .reverse
  let limit := jointLimit known reverse (readTable (jointBreakpoints.zip s.cfg.jointLimit) s.motion.speed) s.au.lastForward
  { s.au with
    known := known, reverse := reverse
    baseDamping := baseDamping known reverse (readTable (jointBreakpoints.zip s.cfg.baseDamping) s.motion.speed)
    jointLimit := limit
    lastForward := if known && !reverse then limit else s.au.lastForward }

/-- R163 to R165: the damping outputs, the fold limit and the torque limit, with J as it is used. -/
def AuRec.damp (a : AuRec) (j : Option Int) : AuRec :=
  match j with
  | none => { a with dpOut := 1000, dnOut := 1000, foldLimit := false, torque := 1000 }
  | some x =>
    let resist := (resistOutput a.baseDamping a.jointLimit (absN x)).toNat
    let base := a.baseDamping.toNat
    { a with
      dpOut := if 0 < x then resist else base
      dnOut := if x < 0 then resist else base
      foldLimit := decide (a.jointLimit ≤ (absN x : Int))
      torque := torqueLimit a.jointLimit (absN x) }

/-- R162 to R165: the joint damping record of a period. Its torque limit and fold limit are inputs of the resolver. -/
def jointStage (s : State) : State := { s with au := s.jointFigures.damp s.chans.j.usable }

/-! ## Tag steering (R167 to R172) -/

/-- R172: the period deviates. -/
def deviates (t : Option Int) (commanded : Int) : Bool :=
  match t with
  | none => true
  | some x => decide (20 < absN (x - commanded))

/-- R172: the deviation timer after a period's test. -/
def AuRec.deviationTest (a : AuRec) (t : Option Int) : AuRec :=
  { a with deviation := if deviates t a.commanded then a.deviation + 20 else 0 }

/-- R169: the commanded angle is seeded at the first period after reset, unless the record has entered FAULT before it, in
which the commanded angle is 0. -/
def AuRec.seed (a : AuRec) (t : Option Int) : AuRec :=
  { a with
    seeded := true
    commanded := if a.tag = .fault then 0 else match t with
      | some x => clampInt (-120) 120 x
      | none => 0 }

/-- R168: the gain, the target and the clamp flag of a STEERING period. -/
def AuRec.steer (a : AuRec) (gain j : Int) : AuRec :=
  let raw := rdiv (-j * gain) 1000
  let target := clampInt (-120) 120 raw
  { a with gain := gain, target := target, clamp := target != raw }

/-- R169: one step of at most 16 toward the target. -/
def stepToward (target commanded : Int) : Int :=
  if absN (target - commanded) ≤ 16 then target else if commanded < target then commanded + 16 else commanded - 16

def AuRec.step (a : AuRec) : AuRec := { a with commanded := stepToward a.target a.commanded }

/-- R170: the test for the centred tag, after the step. -/
def AuRec.centredTest (a : AuRec) (t : Option Int) : AuRec :=
  match t with
  | some x => if a.commanded = 0 ∧ absN x ≤ 5 then { a with tag := .centred, deviation := 0 } else a
  | none => a

/-- R168, R171: the return to STEERING: the target is computed, and the first step is the next period's. -/
def AuRec.toSteering (a : AuRec) (gain j : Int) : AuRec := { a with tag := .steering }.steer gain j

/-- R169 to R171: the record after a period that did not fault. The period that seeds the commanded angle takes no step
and makes no centred test (R169, R175). -/
def AuRec.tagStep (a : AuRec) (seeding : Bool) (gain j : Int) (t : Option Int) : AuRec :=
  match a.tag with
  | .steering => (a.steer gain j).step
  | .centring =>
    if a.causes.any = false then a.toSteering gain j
    else if seeding then a
    else a.step.centredTest t
  | .centred => if a.causes.any = false then { a with commanded := 0 }.toSteering gain j else a
  | .fault => a

/-- The states in which a period tests the tag for deviation (R172), as the period finds the record. -/
def TagState.tested : TagState → Bool
  | .steering => true
  | .centring => true
  | .centred => false
  | .fault => false

/-- R167, R172, R173: a period's seeding, deviation test and step of the tag steering record. The test goes by the state
before the return of R171, so the period at which a CENTRED record returns to STEERING makes none (DESIGN CHOICE, log
entry 15). -/
def tagStage (s : State) : State :=
  let t := s.chans.t.validFigure
  let seeding := !s.au.seeded
  let a := if seeding then s.au.seed t else s.au
  let b := if a.tag.tested then a.deviationTest t else a
  if b.tag.tested && decide (500 ≤ b.deviation) then tagFault .deviation { s with au := b }
  else
    let gain := readTable (gainBreakpoints.zip s.cfg.tagGain) s.motion.speed
    { s with au := b.tagStep seeding gain (s.chans.j.usable.getD 0) t }

/-- R170, R171, R173: the command TL takes in a state of the record. -/
def TagState.lock : TagState → Lock
  | .steering => .free
  | .centring => .free
  | .centred => .engaged
  | .fault => .engaged

/-- R160, R174: a period's commands: DP and DN, then TS, then TL. -/
def tagSend (s : State) : State :=
  let a := { s.act with
    dp := { s.act.dp with command := some s.au.dpOut }
    dn := { s.act.dn with command := some s.au.dnOut }
    ts := { s.act.ts with command := some s.au.commanded } }
  { s with act := a.commandTl s.au.tag.lock }

/-- R160: one articulation period. It updates the centring causes before the step (R167), so a period that is itself the
first to find a cause takes the record from STEERING to CENTRING and steps toward 0 at once (DESIGN CHOICE, log
entry 46). -/
def articulationPeriod (s : State) : State := rrSignal (tagSend (tagStage (auTake (jointStage s))))

/-- ARTICULATION_PERIOD (R160). -/
def execArticulationPeriod (s : State) : Host.Outcome State Fault Refusal :=
  whenInService s fun s =>
    atExpiry s.periods.articulation s fun due t => articulationPeriod { t with periods.articulation := some (due + 20) }

/-- R167: the AU acts on a publication that has changed tag centre. -/
def tagCentreChange (s : State) : State := if s.rr.toAu then auTake { s with rr.toAu := false } else s

/-- TAG_CENTRE_PUBLICATION (R167). -/
def execTagCentrePublication (s : State) : Host.Outcome State Fault Refusal := whenInService s tagCentreChange

end Sys2Proof.Machine
end

