-- ==== Sys2Proof/Machine/Hold.lean ====
section
/-! DEFINITION. The stop hold controller (chapter 5): the hold evaluation of each brake period, its two timers, and a
change of hold requested. -/
namespace Sys2Proof.Machine

/-- R93: a held target after a ratchet, and after p_max has been lowered below it. -/
def ratchet (top fresh target : Nat) : Nat := min (max target fresh) top

/-- R93: a target kept, but for a p_max lowered below it. -/
def capped (top target : Nat) : Nat := min target top

/-- R100: one step of the release ramp. A target above a p_max that a commit has lowered comes down to p_max first and is
then lowered by 10 (DESIGN CHOICE, log entry 50). -/
def rampStep (top target : Nat) : Nat := capped top target - 10

/-- The three held targets changed alike. -/
def ShcRec.mapTargets (f : Nat → Nat) (h : ShcRec) : ShcRec :=
  { h with target2 := f h.target2, target3 := f h.target3, target4 := f h.target4 }

/-- R94 to R96: with every held axle at its mark the hold is ESTABLISHED, and goes on to RELEASE_WAIT when it is no
longer requested, each a change of the resolver's inputs (R74). Creep begins at the entry into ESTABLISHED of a bus that is
not at standstill, also where the same evaluation goes on to RELEASE_WAIT and ends it (DESIGN CHOICE, log entry 49). -/
def establishIfMarked (s : State) : State :=
  if s.heldAtMarks then
    let t := shcGo .established s
    if t.shc.holdRequested then t else shcGo .releaseWait t
  else s

/-- R98: creep at ceiling begins when the last held target has come to p_max. -/
def ceilingCheck (s : State) : State :=
  if s.shc.creep = true ∧ s.targetsAtCeiling = true ∧ s.shc.ceiling = false then
    { s with shc := { s.shc with ceiling := true, creepTimer := none } }
  else s

/-- R89: the hold evaluation, first stage of each brake period. -/
def holdEvaluation (s : State) : State :=
  let top := s.cfg.pMax
  match s.shc.state with
  | .off => s
  | .arming => s
  | .applying => establishIfMarked { s with shc := s.shc.mapTargets (ratchet top s.holdPressure) }
  | .established => ceilingCheck { s with shc := s.shc.mapTargets (ratchet top s.holdPressure) }
  | .holdFault => establishIfMarked { s with shc := s.shc.mapTargets (capped top) }
  | .releaseWait => { s with shc := s.shc.mapTargets (capped top) }
  | .releasing =>
    let t := { s with shc := s.shc.mapTargets (rampStep top) }
    if t.shc.target2 = 0 ∧ t.shc.target3 = 0 ∧ t.shc.target4 = 0 then shcGo .off t else t

/-- ESTABLISHMENT_TIMEOUT (R94). -/
def execEstablishmentTimeout (s : State) : Host.Outcome State Fault Refusal :=
  whenInService s fun s =>
    if s.shc.state = .applying then atExpiry s.shc.establishTimer s fun _ t => rrSignal (fillAll (shcGo .holdFault t)) else s

/-- R97: a target after one creep step. -/
def creepStep (top target : Nat) : Nat := min (target + 100) top

/-- R97, R98: a creep expiry raises the targets and starts the timer again, or begins creep at ceiling. -/
def creepExpiry (due : Nat) (s : State) : State :=
  let t := { s with shc := s.shc.mapTargets (creepStep s.cfg.pMax) }
  if t.targetsAtCeiling then rrSignal { t with shc := { t.shc with ceiling := true, creepTimer := none } }
  else { t with shc.creepTimer := some (due + 300) }

/-- CREEP_TIMER_EXPIRY (R97). -/
def execCreepTimerExpiry (s : State) : Host.Outcome State Fault Refusal :=
  whenInService s fun s => atExpiry s.shc.creepTimer s creepExpiry

/-- R90, R92, R99, R100: hold requested becomes yes. -/
def holdWanted (s : State) : State :=
  match s.shc.state with
  | .off => if s.mayApply then shcApply s else shcGo .arming s
  | .releaseWait => shcGo .established s
  | .releasing => shcReapply s
  | .arming => s
  | .applying => s
  | .established => s
  | .holdFault => s

/-- R90, R96: hold requested becomes no. -/
def holdUnwanted (s : State) : State :=
  match s.shc.state with
  | .arming => shcGo .off s
  | .established => shcGo .releaseWait s
  | .off => s
  | .applying => s
  | .holdFault => s
  | .releaseWait => s
  | .releasing => s

/-- R90: what the SHC does with a figure of hold requested; an unchanged one does nothing. -/
def holdTaken (v : Bool) (s : State) : State :=
  let t := { s with shc.holdRequested := v }
  if v = s.shc.holdRequested then t else if v then holdWanted t else holdUnwanted t

/-- R90: the SHC takes the oldest change of hold requested handed to it. -/
def holdChange (s : State) : State :=
  match s.rr.toShc with
  | [] => s
  | v :: rest => rrSignal (holdTaken v (shcDue { s with rr.toShc := rest }))

/-- HOLD_REQUESTED_CHANGE (R90). -/
def execHoldRequestedChange (s : State) : Host.Outcome State Fault Refusal := whenInService s fun s => fillAll (holdChange s)

end Sys2Proof.Machine
end

