-- ==== Sys2Proof/Machine/Brakes.lean ====
section
/-! DEFINITION. The brake distribution unit (chapter 6): the stages of a brake period, and its commands. -/
namespace Sys2Proof.Machine

/-! ## Stages (R109 to R117) -/

/-- R109: the deceleration target. -/
def decelTarget (brake aMax : Nat) (doorAtSpeed : Bool) : Nat :=
  let a := rdivN (brake * aMax) 1000
  if doorAtSpeed then max a 150 else a


/-- R110: the corner force of a corner whose pressure channel is VALID. -/
def State.cornerForce (s : State) (area : Nat) (k : Corner) : Option Nat :=
  (s.pressureChan k).validFigure.map fun p => rdivN (p.toNat * area) 100

/-- R110: the live load of an axle. -/
def State.liveLoad (s : State) (a : Axle) : Option Nat :=
  let k := s.cfg.axles.get a
  match s.cornerForce k.area (axleCorners a).1, s.cornerForce k.area (axleCorners a).2 with
  | some x, some y => some (x + y + k.unsprung)
  | _, _ => none

/-- R111: the load and its source, by the first case that applies. -/
def axleLoad (far door : FrozenLoad) (live : Option Nat) (substitute : Nat) : Nat × LoadSource :=
  match far, door with
  | .figure x, .figure y => (max x y, .frozen)
  | .figure x, .noFigure => (x, .frozen)
  | .figure x, .absent => (x, .frozen)
  | .noFigure, .figure y => (y, .frozen)
  | .absent, .figure y => (y, .frozen)
  | .noFigure, .noFigure => (substitute, .substitute)
  | .noFigure, .absent => (substitute, .substitute)
  | .absent, .noFigure => (substitute, .substitute)
  | .absent, .absent =>
    match live with
    | some n => (n, .live)
    | none => (substitute, .substitute)

/-- R114: the stretch bias. -/
def stretchBias (j : Option Int) : Nat :=
  match j with
  | none => 75
  | some x => if absN x < 40 then 0 else min 150 (absN x - 40)

/-- R114: the axles that take the bias. -/
def biased : Axle → Bool
  | .a1 => false
  | .a2 => false
  | .a3 => true
  | .a4 => true

/-- R113, R114: the force of an axle. -/
def axleForce (load target bias : Nat) (takesBias : Bool) : Nat :=
  let f := rdivN (load * target) 981
  if takesBias then rdivN (f * (1000 + bias)) 1000 else f

/-- R115: the computed pressure before the clamp. -/
def axlePressure (force factor threshold : Nat) : Nat := if force = 0 then 0 else rdivN (force * 10) factor + threshold

/-- R117: the stop-hold states whose targets are combined. -/
def HoldState.combines : HoldState → Bool
  | .off => false
  | .arming => false
  | .applying => true
  | .established => true
  | .holdFault => true
  | .releaseWait => true
  | .releasing => true

/-- R101, R109: the door brake acts while the door-at-speed field of the last published record is yes. A period between the
two reactions to a change to STANDSTILL takes the driver's demand alone: after the resolver's publication the field is no, and
where the SHC has made its transition first the period still finds it yes (log entry 39). -/
def State.doorBrake (s : State) : Bool := s.rr.published.any Restraint.doorAtSpeed && !s.shc.standstillTaken

/-- R111 to R117: the record of one axle at a period. -/
def State.axleStage (s : State) (target bias : Nat) (a : Axle) : AxleRec :=
  let k := s.cfg.axles.get a
  let l := axleLoad (s.corner (axleCorners a).1).frozen (s.corner (axleCorners a).2).frozen (s.liveLoad a) k.substitute
  let f := axleForce l.1 target bias (biased a)
  let raw := axlePressure f k.factor k.threshold
  let p := min raw s.cfg.pMax
  { load := some l.1, source := l.2, force := f, pressure := p, saturated := decide (s.cfg.pMax < raw)
    output := if s.shc.state.combines then max p (s.shc.target a) else p }

/-- R109 to R117: the brake record of a period. -/
def State.brakeStages (s : State) : BduRec :=
  let target := decelTarget s.motion.brake s.cfg.aMax s.doorBrake
  let bias := stretchBias s.chans.j.usable
  { target := target, bias := bias, axles := .make (s.axleStage target bias) }

/-! ## Commands (R118 to R122) -/

/-- R118, R120, R121: what a period sends a modulator: command first, release request after it. -/
def brakeCommand (f : Freshness) (target output : Nat) (m : ActRec Nat) : ActRec Nat :=
  match f with
  | .fresh => { m with command := some output, release := false }
  | .stale => { m with command := some output, release := false }
  | .demandLost => if target = 0 then { m with release := true } else { m with command := some target, release := false }
  | .awaiting => m

/-- R122: under SUPPLY_LOW the commands are stored and every modulator stays released. -/
def brakeSend (low : Bool) (f : Freshness) (target output : Nat) (m : ActRec Nat) : ActRec Nat :=
  let c := brakeCommand f target output m
  if low then { c with release := true } else c

/-- R107: the BDU's stages and its commands. -/
def brakeUnit (s : State) : State :=
  let b := s.brakeStages
  { s with
    bdu := b
    act.m := .make fun a => brakeSend s.sam.supplyLow s.motion.freshness (s.shc.target a) (b.axles.get a).output (s.act.m.get a) }

/-- R107: one brake period. A transition at standstill that the SHC has still to make follows it (R101). -/
def brakePeriod (s : State) : State := rrSignal (fillAll (shcDue (brakeUnit (holdEvaluation s))))

/-- BRAKE_PERIOD (R107). -/
def execBrakePeriod (s : State) : Host.Outcome State Fault Refusal :=
  whenInService s fun s =>
    atExpiry s.periods.brake s fun due t => brakePeriod { t with periods.brake := some (due + 10) }

end Sys2Proof.Machine
end

