-- ==== Sys2Proof/Machine/Drivers.lean ====
section
/-! DEFINITION. The actuator drivers' coil check (1.7). Modes and readbacks follow from the channel records (Flags). -/
namespace Sys2Proof.Machine

/-- Whether the command of a DRIVEN channel energises its two coils, the first and the second (log entry 5). A corner
valve pair holds with both coils off, fills by the first and exhausts by the second (R17, R138). -/
def valveCoils : Valve → Bool × Bool
  | .hold => (false, false)
  | .fill => (true, false)
  | .exhaust => (false, true)

/-- A damping valve at 1000, full damping, has no current in its coils (1.1). -/
def dampingCoils (command : Nat) : Bool × Bool := (decide (command < 1000), decide (command < 1000))

/-- TL is engaged by its spring and freed by its coil (R17). -/
def lockCoil : Lock → Bool
  | .engaged => false
  | .free => true

/-- The coils of a channel that are energised: none while it is RELEASED (R17), else those of its command. -/
def ActRec.energised {κ : Type} (a : ActRec κ) (coils : κ → Bool × Bool) : Bool × Bool :=
  match a.command with
  | some c => if a.driven then coils c else (false, false)
  | none => (false, false)

/-- R18: what a check senses at a coil: an open coil always, a short only while the coil is energised. -/
def sensed (energised : Bool) (c : Coil) : Coil :=
  match c with
  | .ok => .ok
  | .opened => .opened
  | .shorted => if energised then .shorted else .ok

/-- R18: what a check senses at the two coils of a channel. When one is open and the other short, which condition is
recorded is a free value. -/
def sensedPair (openFirst : Bool) (energised : Bool × Bool) (c : Coil × Coil) : Coil :=
  match sensed energised.1 c.1, sensed energised.2 c.2 with
  | .ok, x => x
  | x, .ok => x
  | .opened, .opened => .opened
  | .shorted, .shorted => .shorted
  | .opened, .shorted => if openFirst then .opened else .shorted
  | .shorted, .opened => if openFirst then .opened else .shorted

/-- R18: a channel's record after a check. A failed channel stays failed; its coil condition follows later checks. -/
def ActRec.checked {κ : Type} (a : ActRec κ) (c : Coil) : ActRec κ :=
  match c with
  | .ok => { a with coil := .ok, persist := 0 }
  | .opened => { a with coil := .opened, persist := min 3 (a.persist + 1), failed := a.failed || decide (3 ≤ a.persist + 1) }
  | .shorted => { a with coil := .shorted, persist := min 3 (a.persist + 1), failed := a.failed || decide (3 ≤ a.persist + 1) }

def ActRec.checkedTwo {κ : Type} (a : ActRec κ) (openFirst : Bool) (coils : κ → Bool × Bool) (c : Coil × Coil) : ActRec κ :=
  a.checked (sensedPair openFirst (a.energised coils) c)

/-- R18, R19: every checked channel after a check. A TL that fails holds by its spring, and overrides TS. -/
def Actuators.checked (a : Actuators) (openFirst : Bool) (f : CoilSenses) : Actuators :=
  let tl := a.tl.checked (sensed (a.tl.energised fun c => (lockCoil c, false)).1 f.tl)
  { a with
    m := .make fun x => (a.m.get x).checked (sensed (a.m.get x).driven (f.m.get x))
    c := .make fun k => (a.c.get k).checkedTwo openFirst valveCoils (f.c.get k)
    dp := a.dp.checkedTwo openFirst dampingCoils f.dp
    dn := a.dn.checkedTwo openFirst dampingCoils f.dn
    tl := tl
    ts := { a.ts with overridden := lockHolds tl } }

/-- R173: at TL's failure the tag record enters FAULT, unless it is there already. -/
def lockFailure (was : Bool) (s : State) : State :=
  if s.act.tl.failed = true ∧ was = false ∧ s.au.tag ≠ .fault then tagFault .lockFailed s else s

/-- The corners whose valve pairs have been failed. -/
def newlyFailed (before after : Actuators) : List Corner :=
  allCorners.filter fun k => (after.c.get k).failed && !(before.c.get k).failed

/-- R18: one check, with the failures it signals to the LU (R127), each reaching its one corner, and to the AU (R173). -/
def coilCheck (f : CoilSenses) (s : State) : State :=
  let a := s.act.checked (Config.openRecorded s.draws) f
  let t := cornersChanged (newlyFailed s.act a) { s with act := a, draws := s.draws + 1 }
  rrSignal (fillAll (lockFailure s.act.tl.failed (signalFailed s.lu t)))

/-- COIL_CHECK (R18). -/
def execCoilCheck (found : CoilSenses) (s : State) : Host.Outcome State Fault Refusal :=
  whenInService s fun s => atExpiry s.periods.coil s fun due t => coilCheck found { t with periods.coil := some (due + 10) }

end Sys2Proof.Machine
end

