-- ==== Sys2Proof/Machine/Kneeling.lean ====
section
/-! DEFINITION. The kneel zones (chapter 8): a published depth or keep low taken by a zone, and the two timers. -/
namespace Sys2Proof.Machine

/-- R147: a zone in UP, RISING or STUCK_LOW lowers on a depth above 0 at standstill. -/
def lowerIfAsked (z : Zone) (s : State) : State :=
  if 0 < (s.zone z).depth ∧ s.motion.speedState = .standstill then zoneLower z s else s

/-- R150: a depth in force taken by a DOWN zone: deeper lowers at standstill and waits otherwise, shallower retargets. -/
def downDepth (z : Zone) (s : State) : State :=
  let r := s.zone z
  if r.target < r.depth then (if s.motion.speedState = .standstill then zoneLower z s else s)
  else if r.depth < r.target then zoneRetarget z r.timer s
  else s

/-- R150: a depth in force taken by a LOWERING zone: deeper starts the timer again, shallower leaves it running. -/
def loweringDepth (z : Zone) (s : State) : State :=
  let r := s.zone z
  if r.target < r.depth then zoneRetarget z (some (s.now + 6000)) s
  else if r.depth < r.target then zoneRetarget z r.timer s
  else s

/-- R147, R150, R151: what a zone does with the depth in force and keep low it has taken. -/
def zoneAct (z : Zone) (s : State) : State :=
  let r := s.zone z
  match r.state with
  | .up => lowerIfAsked z s
  | .rising => lowerIfAsked z s
  | .stuckLow => lowerIfAsked z s
  | .lowering =>
    if r.depth = 0 then (if r.keepLow then s else zoneRise z false s) else loweringDepth z s
  | .down =>
    if r.depth = 0 then (if r.keepLow then s else zoneRise z false s) else downDepth z s

/-- The changes handed to a zone, oldest first. -/
def RrRec.toZone (r : RrRec) : Zone → List (Nat × Bool)
  | .front => r.toFront
  | .rear => r.toRear

def RrRec.setToZone (r : RrRec) (z : Zone) (q : List (Nat × Bool)) : RrRec :=
  match z with
  | .front => { r with toFront := q }
  | .rear => { r with toRear := q }

/-- R145: a zone takes the oldest change of its figures handed to it; unchanged figures do nothing. -/
def zoneUpdate (z : Zone) (s : State) : State :=
  match s.rr.toZone z with
  | [] => s
  | v :: rest =>
    let t := { s with rr := s.rr.setToZone z rest }
    if v.1 = (s.zone z).depth ∧ v.2 = (s.zone z).keepLow then t
    else rrSignal (fillAll (signalFailed s.lu (zoneAct z (t.setZone z { t.zone z with depth := v.1, keepLow := v.2 }))))

/-- ZONE_RESTRAINT_UPDATE (R145). -/
def execZoneRestraintUpdate (z : Zone) (s : State) : Host.Outcome State Fault Refusal := whenInService s (zoneUpdate z)

/-- R149: the lowering timer expires: DOWN, incomplete. -/
def lowerExpiry (z : Zone) (s : State) : State :=
  rrSignal (s.setZone z { s.zone z with state := .down, incomplete := true, timer := none })

/-- LOWERING_TIMER_EXPIRY (R149). -/
def execLoweringTimerExpiry (z : Zone) (s : State) : Host.Outcome State Fault Refusal :=
  whenInService s fun s =>
    if (s.zone z).state = .lowering then atExpiry (s.zone z).timer s fun _ t => lowerExpiry z t else s

/-- R153: the rising timer expires: STUCK_LOW. -/
def riseExpiry (z : Zone) (s : State) : State := rrSignal (s.setZone z { s.zone z with state := .stuckLow, timer := none })

/-- RISING_TIMER_EXPIRY (R153). -/
def execRisingTimerExpiry (z : Zone) (s : State) : Host.Outcome State Fault Refusal :=
  whenInService s fun s =>
    if (s.zone z).state = .rising then atExpiry (s.zone z).timer s fun _ t => riseExpiry z t else s

end Sys2Proof.Machine
end

