-- ==== Sys2Proof/Machine/Levelling.lean ====
section
/-! DEFINITION. The levelling control (chapter 7): a levelling period, and a change of level freeze. -/
namespace Sys2Proof.Machine

/-! ## One corner at a period (R132 to R134) -/

/-- R132: the error of a corner, while its reported height is present. -/
def CornerRec.error (c : CornerRec) : Option Int := c.reported.map fun h => c.target - h

/-- The reported height is absent, or the corner's height channel is HELD (R133, R134). -/
def heightLost (chan : Option ChanState) (e : Option Int) : Bool := e.isNone || chan == some .held

/-- R3, R127: the mode by which a period takes a corner. One whose height channel a commit has left without a state, as its
value is then absent, is taken as for a FAILED channel; the mode in its record waits for the next sample (R11; DESIGN
CHOICE, log entry 41). -/
def State.actingMode (s : State) (k : Corner) : CornerMode :=
  if (s.heightChan k).st = none then .failed else (s.corner k).mode

/-- R132: the error is inside the deadband. -/
def insideDeadband (m : CornerMode) (v : SpeedState) (e : Int) : Bool := decide (absN e ≤ deadband m v)

/-- R133: the error persistence time after a period. -/
def persistAfter (m : CornerMode) (lost low braking inside : Bool) (was : Nat) : Nat :=
  match m with
  | .kneel => 0
  | .frozen => 0
  | .failed => 0
  | .ride => if lost || low || braking || inside then 0 else min 2000 (was + 100)

/-- R134: the valve state and the hold reason, by the first case that applies. -/
def valveDecision (m : CornerMode) (lost low braking : Bool) (v : SpeedState) (persist : Nat) (bottomed air : Bool)
    (e : Int) : Valve × Option HoldReason :=
  if m = .failed then (.hold, some .failed)
  else if lost then (.hold, some .heightHeld)
  else if low then (.hold, some .supply)
  else if m = .frozen then (.hold, some .freeze)
  else if braking then (.hold, some .braking)
  else if insideDeadband m v e then (.hold, none)
  else if m = .ride ∧ v ≠ .standstill ∧ persist < 2000 then (.hold, some .persistence)
  else if e < 0 then (if bottomed then (.hold, some .bottomed) else (.exhaust, none))
  else if air then (.fill, none)
  else (.hold, some .air)

/-- R138: the valve's channel after a period: the command, then the release request. -/
def sendValve (m : CornerMode) (v : Valve) (a : ActRec Valve) : ActRec Valve :=
  if m = .failed then { a with release := true } else { a with command := some v, release := false }

/-- The braking hold of R133 and R134. -/
def State.brakingHold (s : State) : Bool := decide (200 < s.bdu.target)

/-- R132 to R134, R138: one corner at a period. -/
def levelCorner (s : State) (k : Corner) : State :=
  let c := s.corner k
  let m := s.actingMode k
  let e := c.error
  let lost := heightLost (s.heightChan k).st e
  let v := s.motion.speedState
  let p := persistAfter m lost s.sam.supplyLow s.brakingHold (insideDeadband m v (e.getD 0)) c.persist
  let d := valveDecision m lost s.sam.supplyLow s.brakingHold v p c.bottomed (s.sam.holdOk && s.sam.fillOk) (e.getD 0)
  let t := s.setCorner k { c with persist := p, valve := d.1, reason := d.2 }
  { t with act.c := t.act.c.set k (sendValve m d.1 (t.act.c.get k)) }

/-- R131: RAISED returns to NORMAL above 30 km/h. -/
def speedReturn (s : State) : State :=
  if s.lu.ride = .raised ∧ s.motion.freshness = .fresh ∧ 300 < s.motion.speed then changeRide .normal .speed s else s

/-- R141: a corner's contribution to the level error sum. -/
def CornerRec.share (c : CornerRec) : Nat :=
  match c.error with
  | some e => min 220 (absN e)
  | none => 220

def LuRec.levelError (lu : LuRec) : Nat := allCorners.foldl (fun n k => n + (lu.corners.get k).share) 0

/-- R141: the level error sum and the level flag. They are taken after the ride-level test, with the targets as they then
stand: at a period of a speed return, with the new ones (DESIGN CHOICE, log entry 40). -/
def levelSum (s : State) : State :=
  let n := s.lu.levelError
  { s with lu := { s.lu with errorSum := n, levelFlag := s.motion.speedState == .standstill && decide (n ≤ 24) } }

/-- R126: one levelling period. -/
def levellingPeriod (s : State) : State := levelSum (speedReturn (allCorners.foldl levelCorner s))

/-- LEVELLING_PERIOD (R126). -/
def execLevellingPeriod (s : State) : Host.Outcome State Fault Refusal :=
  whenInService s fun s =>
    atExpiry s.periods.levelling s fun due t => fillAll (levellingPeriod { t with periods.levelling := some (due + 100) })

/-! ## Level freeze (R127, R128, R135, R139, R140) -/

/-- Level freeze becomes yes: every corner captures its load, and the modes are derived again by the record last published. -/
def freezeOn (s : State) : State := cornersChanged allCorners (allCorners.foldl captureLoad { s with lu.freeze := true })

/-- Level freeze becomes no: the modes are derived again, and loads are cleared where nothing else keeps them. -/
def freezeOff (s : State) : State := allCorners.foldl clearLoad (cornersChanged allCorners { s with lu.freeze := false })

/-- The LU takes the oldest change of level freeze handed to it. -/
def freezeChange (s : State) : State :=
  match s.rr.toLu with
  | [] => s
  | v :: rest =>
    let t := { s with rr.toLu := rest }
    if v = s.lu.freeze then t else rrSignal (signalFailed s.lu (if v then freezeOn t else freezeOff t))

/-- LEVEL_FREEZE_CHANGE (R135). -/
def execLevelFreezeChange (s : State) : Host.Outcome State Fault Refusal := whenInService s fun s => fillAll (freezeChange s)

end Sys2Proof.Machine
end

