-- ==== Sys2Proof/Machine/Links.lean ====
section
/-! DEFINITION. The link controllers (chapter 11): reception, a frame sent, the page timer, errors and BUS_OFF. -/
namespace Sys2Proof.Machine

/-! ## Reception (R187, R188) -/

/-- R186: the data length of the two types a node sends. -/
def frameType (f : BusFrame) : Option FilterType :=
  if typeOf f.ident = 1 ∧ f.data.length = 8 then some .motion
  else if typeOf f.ident = 16 ∧ f.data.length = 8 then some .request
  else none

/-- R187 test 3. -/
def Filter.passes (x : Filter) (t : FilterType) (source : Nat) : Bool :=
  x.inUse && x.type == t && decide (x.low ≤ source) && decide (source ≤ x.high)

/-- R187 test 4: the source is the in-use VEHICLE_COMPUTER row's node. -/
def State.isComputer (s : State) (source : Nat) : Bool :=
  s.cfg.pt.any fun r => r.inUse && r.role == .vehicleComputer && r.node == source

/-- R187: the frame a link's controller accepts. -/
def State.accepts (s : State) (l : Link) (f : BusFrame) : Option RxFrame :=
  let source := sourceOf f.ident
  if destOf f.ident ≠ 0 then none
  else
    match frameType f with
    | none => none
    | some t =>
      if ((s.cfg.filters l).any fun x => x.passes t source) = false then none
      else if t = .motion ∧ (l = .body ∨ s.isComputer source = false) then none
      else if t = .request ∧ isRequestCode (byteAt f.data 0) = false then none
      else some { type := t, source := source, data := f.data }

/-- R188: an accepted frame takes a free buffer, or is lost to overrun. -/
def LinkRec.buffer (x : RxFrame) (l : LinkRec) : LinkRec :=
  if l.rx.length < 2 then { l with rx := l.rx ++ [x] } else { l with overruns := satSucc 65535 l.overruns }

/-- R192: a frame received without error lowers the receive count. -/
def LinkRec.goodReceive (l : LinkRec) : LinkRec := { l with rxErrors := l.rxErrors - 1 }

/-- R187, R188, R192, R193. A frame for another destination has been received without error like any other and lowers the
receive error count (DESIGN CHOICE, log entry 35). -/
def receiveFrame (l : Link) (f : BusFrame) (s : State) : State :=
  if (s.link l).isOff then s
  else
    let t := s.onLink l LinkRec.goodReceive
    match s.accepts l f with
    | none => t
    | some x => t.onLink l (LinkRec.buffer x)

/-- RECEIVE_FRAME (R187). -/
def execReceiveFrame (l : Link) (f : BusFrame) (s : State) : Host.Outcome State Fault Refusal :=
  whenInService s (receiveFrame l f)

/-! ## Transmission (R190, R191) -/

/-- R184: the reply of an accepted RESTART. -/
def isRestartReply : TxItem → Bool
  | .reply r => r.request == reqRestart && r.code == .done
  | .restraint _ _ => false
  | .notice _ => false
  | .status _ => false

/-- R184: the reply's frame has been sent on the chassis link. -/
def noteSent (l : Link) (i : TxItem) (s : State) : State :=
  match s.restart with
  | none => s
  | some r => if l = .chassis ∧ isRestartReply i = true then { s with restart := some { r with replySent := true } } else s

/-- R190, R192: the frame in transmission has been sent without error. -/
def LinkRec.sent (i : TxItem) (l : LinkRec) : LinkRec := { l.freeSent with txErrors := l.txErrors - 1, lastSent := some i }

/-- R190: the frame in transmission, or the one the controller offers at that moment, has been sent; the freed slot is
filled, and a LIST frame that waits takes the place that comes free in the reply queue (R189). -/
def frameSent (l : Link) (s : State) : State :=
  let t := s.onLink l LinkRec.offer
  match (t.link l).sending with
  | none => s
  | some i => (fillAll (noteSent l i (t.onLink l (LinkRec.sent i)))).onLink l (LinkRec.listTakes (t.link l).replies.length)

/-- FRAME_TRANSMITTED (R190). -/
def execFrameTransmitted (l : Link) (s : State) : Host.Outcome State Fault Refusal := whenInService s (frameSent l)

/-- STATUS_PAGE_TIMER (R191). -/
def execStatusPageTimer (s : State) : Host.Outcome State Fault Refusal :=
  whenInService s fun s =>
    atExpiry s.pageTimer s fun due t => fillAll { t.onBoth LinkRec.pageDue with pageTimer := some (due + 50) }

/-! ## Errors (R192, R193) -/

/-- R192, R193: an error in the frame in transmission, with the entry into BUS_OFF when the count passes 255. -/
def LinkRec.transmitError (l : LinkRec) : LinkRec :=
  let e := { l with txErrors := l.txErrors + 8 }
  if 255 < e.txErrors then e.empty else e

/-- R190, R192: the frame stays in transmission. -/
def transmitError (l : Link) (s : State) : State :=
  let t := s.onLink l LinkRec.offer
  match (t.link l).sending with
  | none => s
  | some _ => t.onLink l LinkRec.transmitError

/-- TRANSMIT_ERROR (R192). -/
def execTransmitError (l : Link) (s : State) : Host.Outcome State Fault Refusal := whenInService s (transmitError l)

/-- R192. -/
def LinkRec.receiveError (l : LinkRec) : LinkRec := if l.isOff then l else { l with rxErrors := satSucc 255 l.rxErrors }

/-- RECEIVE_ERROR (R192). -/
def execReceiveError (l : Link) (s : State) : Host.Outcome State Fault Refusal :=
  whenInService s fun s => s.onLink l LinkRec.receiveError

/-- R193: an occurrence of 11 consecutive recessive bits in BUS_OFF. The link leaves BUS_OFF at the 128th, with 127 counted
before it; one that comes earlier is counted, as the clock counts others (DESIGN CHOICE, log entry 27). -/
def LinkRec.recover (l : LinkRec) : LinkRec :=
  if l.isOff = false then l
  else if l.recessive < 127 then { l with recessive := l.recessive + 1 }
  else { l with txErrors := 0, rxErrors := 0, recessive := 128 }

/-- BUS_OFF_RECOVERY (R193). -/
def execBusOffRecovery (l : Link) (s : State) : Host.Outcome State Fault Refusal :=
  whenInService s fun s => s.onLink l LinkRec.recover

end Sys2Proof.Machine
end

