-- ==== Sys2Proof/Machine/Table.lean ====
section
/-! DEFINITION. The operations on the participant table and the interlock table that several commands share
(chapters 2 and 3): hearing a participant, creating, amending, adopting and retiring entries, the roll call's opening
and close, and a report's completion and abandonment. -/
namespace Sys2Proof.Machine

/-! ## Participants -/

/-- The volatile fields of row n changed. -/
def State.updVol (s : State) (n : Nat) (f : PtVol → PtVol) : State := { s with pt := setNth s.pt n f }

/-- R23, R24: a frame is heard from row n. -/
def hear (n lease : Nat) (s : State) : State :=
  s.updVol n fun v => { v with presence := .present, deadline := some (s.now + lease) }

/-! ## Creation (R31, R34, R54) -/

/-- R31: the number after n. -/
def seqAfter (n : Nat) : Nat := if n < 4294967295 then n + 1 else 1

/-- R31: the next number that no entry holds. With at most 24 entries, 25 tries find one. -/
def freeSeq (held : List Nat) : Nat → Nat → Nat
  | 0, n => n
  | tries + 1, n => if held.contains n then freeSeq held tries (seqAfter n) else n

/-- The number the next entry takes. -/
def State.newSeq (s : State) : Nat := freeSeq (s.it.entries.map Entry.seq) 25 s.it.nextSeq

/-- R34: the state a new entry takes from its one examination. -/
def State.entryState (s : State) (kind : Kind) (zone : EntryZone) : EntryState :=
  match s.grantFails kind zone with
  | none => .active
  | some r => .pending r

/-- R27: the zone of an entry follows its kind and its owner's door. -/
def zoneFor (kind : Kind) (door : Option Nat) (carried : Nat) : EntryZone :=
  match kind with
  | .door => if door = some 1 ∨ door = some 2 then .front else .rear
  | .ramp => .rear
  | .kneel => (zoneOfCode carried).getD .whole
  | .hold => .whole
  | .service => .whole

/-- R52. -/
def clampDepth (d : Nat) : Nat := if d < 30 then 30 else if 90 < d then 90 else d

def Kind.hasOpening : Kind → Bool
  | .door => true
  | .ramp => true
  | .kneel => false
  | .hold => false
  | .service => false

/-- R54: the entry that a checked request creates. -/
def State.newEntry (s : State) (owner : Nat) (row : PtCfg) (kind : Kind) (f : EntryFields) : Entry :=
  let zone := zoneFor kind row.door f.zone
  { owner := owner, tag := f.tag, kind := kind, zone := zone
    effects := (mandatory kind).union ((optionals kind).inter (f.effects.getD .none))
    state := s.entryState kind zone, orphaned := false
    depth := if kind = .kneel then f.depth.map clampDepth else none
    opening := if kind.hasOpening then openingOfCode f.opening else none
    seq := s.newSeq }

/-- R31: an entry joins the end of the table, and the counter goes past its number. -/
def addEntry (e : Entry) (s : State) : State :=
  { s with it := { s.it with entries := s.it.entries ++ [e], nextSeq := seqAfter e.seq } }

/-- The causes of a creation's notice: the grant with it, when the examination grants. A recovery entry is orphaned from
its creation, by no orphaning, and its notice carries the creation alone (DESIGN CHOICE, log entry 32). -/
def creationCauses (e : Entry) : NoticeCauses :=
  { NoticeCauses.none with creation := true, grant := !e.orphaned && e.state == .active }

def State.creationNotice (s : State) (e : Entry) : Notice := .entryState (s.summary e false) (creationCauses e)

/-! ## Checks and changes of fields (R51 to R53) -/

/-- R53 steps 1 to 3: the first check of an ASSERT or of a staged entry that fails. A zone byte that names no zone is
refused whatever the kind, although only a KNEEL entry's zone is read (DESIGN CHOICE, log entry 33). -/
def checkFields (role : Role) (f : EntryFields) : Option RefusalReason :=
  match kindOfCode f.kind with
  | none => some .badField
  | some kind =>
    if 6 < f.tag ∨ 3 < f.zone ∨ 3 < f.opening then some .badField
    else if mayAssert kind role = false then some .role
    else
      let named := f.effects.getD .none
      let misfit :=
        named.diff ((mandatory kind).union (optionals kind)) != .none ||
        (kind == .kneel && (f.zone == 0 || f.depth.isNone)) || (kind != .kneel && f.depth.isSome) ||
        (kind.hasOpening && f.opening == 0) || (!kind.hasOpening && f.opening != 0)
      if misfit then some .badField else none

def KeptSet.any (k : KeptSet) : Bool := k.kind || k.zone || k.effects || k.depth || k.opening

/-- What an AMEND or an adoption makes of an entry (R51): the entry, the fields kept out, the clamped mark. -/
structure Amended where
  entry : Entry
  kept : KeptSet
  clamped : Bool
deriving DecidableEq, Repr

/-- R51: the optional effects that result from the wish, effect by effect: the driver console removes at standstill
and does not add. -/
def wishedOptionals (console standstill : Bool) (now wish : Effects) : Effects :=
  if console then (if standstill then now.inter wish else now) else wish

/-- R51, R52: the fields carried are applied to an entry. -/
def amendEntry (console standstill : Bool) (f : EntryFields) (e : Entry) : Amended :=
  let m := mandatory e.kind
  let o := optionals e.kind
  let opts := e.effects.inter o
  let wish := match f.effects with
    | some w => w.inter o
    | none => opts
  let got := wishedOptionals console standstill opts wish
  let outside := match f.effects with
    | some w => w.diff (m.union o)
    | none => .none
  let figure := f.depth.map clampDepth
  let depthOpen := e.kind == .kneel && (!console || standstill || figure == e.depth)
  let opening := openingOfCode f.opening
  { entry := { e with
      effects := m.union got
      depth := if f.depth.isSome && depthOpen then figure else e.depth
      opening := if opening.isSome && e.kind.hasOpening then opening else e.opening }
    kept :=
      { kind := f.kind != 0 && f.kind != codeOfKind e.kind
        zone := f.zone != 0 && f.zone != codeOfZone e.zone
        effects := got != wish || outside != .none
        depth := f.depth.isSome && !depthOpen
        opening := opening.isSome && !e.kind.hasOpening }
    clamped := f.depth.isSome && depthOpen && figure != f.depth }

/-- R55, R64: an adoption's fields. It carries the whole set of optional effects wished, and a zone only for KNEEL (R53). -/
def EntryFields.adopting (f : EntryFields) : EntryFields :=
  { f with effects := some (f.effects.getD .none), zone := if kindOfCode f.kind = some .kneel then f.zone else 0 }

/-- R39, R55: an entry adopted. -/
def adoptEntry (console standstill : Bool) (f : EntryFields) (e : Entry) : Amended :=
  amendEntry console standstill f.adopting { e with orphaned := false }

/-- R29: two entries have one key. -/
def Entry.sameKey (a b : Entry) : Bool := a.owner == b.owner && a.tag == b.tag

/-- An entry replaced by another with its key. -/
def putEntry (e : Entry) (s : State) : State :=
  { s with it.entries := s.it.entries.map fun x => if x.sameKey e then e else x }

/-- R37: an entry taken out of the table; the others keep their order. -/
def dropEntry (e : Entry) (s : State) : State := { s with it.entries := s.it.entries.filter fun x => !x.sameKey e }

/-- R37: a retirement with its notice. -/
def retire (e : Entry) (s : State) : State := notify [s.retiredNotice e] (dropEntry e s)

/-- The fields of an entry that an AMEND may change. -/
def fieldsDiffer (a b : Entry) : Bool := a.effects != b.effects || a.depth != b.depth || a.opening != b.opening

/-! ## The roll call (R40, R42) -/

/-- R40: the roll call opens at the event that completes its two conditions. -/
def openRollCall (s : State) : State :=
  if s.it.rollCall = .awaiting ∧ s.motion.acceptedAt.isSome = true ∧ s.allSampled = true then
    let read := s.cfg.pt.map fun c => c.inUse && c.expected
    let t := { s with
      pt := (read.zip s.pt).map fun r => { r.2 with expected := r.1 }
      it := { s.it with rollCall := .opened, window := some (s.now + 2000) } }
    notify [.rollCall 2000 (read.countP id)] t
  else s

/-- R42: the recovery entry of row n. -/
def recoveryEntry (n seq : Nat) : Entry :=
  { owner := n, tag := 7, kind := .hold, zone := .whole
    effects := { stopBrake := true, driveInhibit := true, keepLow := false, levelFreeze := false, tagCentre := false }
    state := .active, orphaned := true, depth := none, opening := none, seq := seq }

/-- R42: the rows that receive a recovery entry, in row order. -/
def State.missingRows (s : State) : List Nat :=
  (s.rows.filter fun r => r.2.1.inUse && r.2.2.expected && !r.2.2.reported).map fun r => r.1

def addRecovery (s : State) (n : Nat) : State := addEntry (recoveryEntry n s.newSeq) s

/-- R42: the close: recovery entries, CLOSED, and the re-examination, with one notice for each in table order. -/
def closeRollCall (s : State) : State :=
  let t := s.missingRows.foldl addRecovery s
  let u := { t with it := { t.it with rollCall := .closed, window := none } }
  let made := u.it.entries.drop s.it.entries.length
  rrSignal (notify (u.examNotices u.grantView ++ made.map u.creationNotice) { u with it.entries := u.reexamined u.grantView })

/-! ## Reports (R63 to R65) -/

/-- R63: the reply of an abandoned report. -/
def abandonReply (node : Nat) (c : ReportCtx) : Reply :=
  let r := replyTo node c.code c.ref (.refused .invalid)
  { r with marks := { r.marks with abandoned := true } }

/-- R63: a report is abandoned by gap expiry or by lease expiry. -/
def abandonReport (n : Nat) (row : PtCfg) (s : State) : State :=
  match (s.vol n).report with
  | none => s
  | some c => (s.updVol n fun v => { v with report := none }).onLink row.link (LinkRec.placeReplyIfRoom (abandonReply row.node c))

/-- What a completing report has done so far: the state, and the counts of its reply. -/
structure Completion where
  state : State
  adopted : List Nat
  refused : Nat
  kept : Nat
  clamped : Bool
deriving DecidableEq, Repr

/-- R64 step 2: what reconciliation leaves of an entry of the reporting participant: none when it is retired. -/
def reconcile (n : Nat) (staged : List EntryFields) (e : Entry) : Option Entry :=
  if e.owner ≠ n ∨ (e.tag ≠ 7 ∧ (staged.any fun f => f.tag == e.tag) = true) then some e
  else if e.isOpen then some { e with orphaned := true }
  else none

/-- R64 step 2: the tags left standing because their opening was not CLOSED. -/
def State.stayed (s : State) (n : Nat) (staged : List EntryFields) : List Nat :=
  (s.it.entries.filter fun e => e.owner == n && e.tag != 7 && !(staged.any fun f => f.tag == e.tag) && e.isOpen).map Entry.tag

/-- R64 step 3: one staged entry is taken. -/
def takeStaged (n : Nat) (row : PtCfg) (c : Completion) (f : EntryFields) : Completion :=
  match checkFields row.role f, kindOfCode f.kind with
  | none, some kind =>
    match c.state.findEntry n f.tag with
    | some e =>
      let a := adoptEntry (row.role == .driverConsole) (c.state.motion.speedState == .standstill) f e
      { c with state := putEntry a.entry c.state, adopted := f.tag :: c.adopted
               kept := if a.kept.any then c.kept + 1 else c.kept, clamped := c.clamped || a.clamped }
    | none =>
      if c.state.hasPlace n then
        { c with state := addEntry (c.state.newEntry n row kind f) c.state
                 clamped := c.clamped || (kind == .kneel && f.depth.map clampDepth != f.depth) }
      else { c with refused := c.refused + 1 }
  | _, _ => { c with refused := c.refused + 1 }

/-- The notice of what a report has made of one old entry, if anything (R36). The entry is known by its key: a report
creates none under a key that stood in the table, while a number can return (R31). -/
def State.reportNotice (s : State) (n : Nat) (adopted : List Nat) (old : Entry) : Option Notice :=
  match s.it.entries.find? fun x => x.sameKey old with
  | none => some (s.retiredNotice old)
  | some new =>
    let changed := fieldsDiffer old new
    let causes := { NoticeCauses.none with
      fieldChange := changed
      orphaning := !old.orphaned && new.orphaned
      adoption := new.owner == n && adopted.contains new.tag && (old.orphaned || changed) }
    if causes = .none then none else some (.entryState (s.summary new false) causes)

/-- R64, R65: a report completes as one event, and its reply's code, counts and marks are put into `base`. The reply
is not placed here. -/
def completeReport (n : Nat) (row : PtCfg) (staged : List EntryFields) (base : Reply) (s : State) : State × Reply :=
  let old := s.it.entries
  let stayed := s.stayed n staged
  let t := s.updVol n fun v => { v with reported := true, report := none }
  let u := { t with it.entries := t.it.entries.filterMap (reconcile n staged) }
  let c := staged.foldl (takeStaged n row) { state := u, adopted := [], refused := 0, kept := 0, clamped := false }
  let made := c.state.it.entries.filter fun e => !old.any e.sameKey
  let notices := old.filterMap (c.state.reportNotice n c.adopted) ++ made.map c.state.creationNotice
  let whole := c.refused == 0 && c.kept == 0 && stayed.isEmpty
  (rrSignal (notify notices c.state),
    { base with code := if whole then .done else .donePartly, marks := { base.marks with clamped := c.clamped }
                tail := .report c.refused c.kept stayed })

/-! ## Taking a request (R48, R49) -/

/-- The first item of a list that meets a test, and the list without it. -/
def takeFirst {α : Type} (p : α → Bool) : List α → Option (α × List α)
  | [] => none
  | x :: rest => if p x then some (x, rest) else (takeFirst p rest).map fun r => (r.1, x :: r.2)

/-- R48, R184: the request handler may take a request from a link. -/
def State.canTake (s : State) (l : Link) : Bool :=
  s.restart.isNone && decide ((s.link l).replies.length < 8) && (s.link l).listCtx.isNone

/-- The oldest request in a link's receive buffers, and the buffers without it (R188). -/
def State.oldestRequest (s : State) (l : Link) : Option (Request × List RxFrame) :=
  (takeFirst (fun f => f.type == .request) (s.link l).rx).map fun r => ({ source := r.1.source, data := r.1.data }, r.2)

/-- R189: a reply is placed on a link. -/
def answer (l : Link) (r : Reply) (s : State) : State := s.onLink l (LinkRec.placeReply r)

def Request.reply (q : Request) (code : ReplyCode) : Reply := replyTo q.source q.code q.ref code

def refuse (l : Link) (q : Request) (why : RefusalReason) (s : State) : State := answer l (q.reply (.refused why)) s

/-- R48, R49: the oldest request waiting on a link is taken if it is the one this command serves: its participant is
heard, or the request is refused NOT_PARTICIPANT; then the request's own rule acts. -/
def serve (l : Link) (mine : Request → Bool) (act : Nat → PtCfg → Request → State → State) (s : State) : State :=
  if s.canTake l then
    match s.oldestRequest l with
    | none => s
    | some (q, rest) =>
      if mine q then
        let t := s.onLink l fun r => { r with rx := rest }
        fillAll (match t.participant l q.source with
          | none => refuse l q .notParticipant t
          | some (n, row) => act n row q (hear n row.lease t))
      else s
  else s

/-- Whether a request has a code. -/
def Request.is (code : Nat) (q : Request) : Bool := q.code == code

/-- R48 third step: the roles that may send OVERRIDE and SET_RIDE_LEVEL. -/
def mayOverride (r : Role) : Bool := r == .driverConsole || r == .serviceTool

end Sys2Proof.Machine
end

