-- ==== Sys2Proof/Machine/Measurement.lean ====
section
/-! DEFINITION. The measurement sample (chapter 1) with what it signals to the levelling unit (chapters 7 and 8), the
articulation unit and the supply and air monitor (chapter 10). -/
namespace Sys2Proof.Machine

/-! ## Channels -/

/-- 1.3: a raw count that is a figure to be used. -/
def inRange (raw : Nat) : Bool := decide (40 ≤ raw) && decide (raw ≤ 4055)

/-- R4: the calibrated figure of a raw count, in stages, clamped to the channel range. -/
def calibrated (range : Int × Int) (k : Calib) (raw : Nat) : Int :=
  let first := rdiv (((raw : Int) - k.offset) * k.scale) 4096
  let second := if k.gainOn then rdiv (first * k.trim) 1000 else first
  clampInt range.1 range.2 second

/-- R7, R8: an in-range sample of a channel that is HELD or FAILED. -/
def ChanRec.recovering (r : ChanRec) (raw : Nat) (figure : Int) : ChanRec :=
  if 1000 ≤ r.recTime + 10 then { r with raw := raw, st := some .valid, value := some figure, failTime := 0, recTime := 0 }
  else { r with raw := raw, recTime := r.recTime + 10 }

/-- R6 to R8: the record of a fitted channel after a sample. -/
def ChanRec.sampled (r : ChanRec) (raw : Nat) (figure : Int) : ChanRec :=
  match r.st with
  | none =>
    if inRange raw then { r with raw := raw, st := some .valid, value := some figure, failTime := 0, recTime := 0 }
    else { r with raw := raw, st := some .held, value := none, failTime := 10, recTime := 0, wasOut := true }
  | some .valid =>
    if inRange raw then { r with raw := raw, value := some figure }
    else { r with raw := raw, st := some .held, failTime := 10, recTime := 0, wasOut := true }
  | some .held =>
    if inRange raw then r.recovering raw figure
    else if 500 ≤ r.failTime + 10 then { r with raw := raw, st := some .failed, failTime := 500, recTime := 0 }
    else { r with raw := raw, failTime := r.failTime + 10, recTime := 0 }
  | some .failed =>
    if inRange raw then r.recovering raw figure
    else { r with raw := raw, recTime := 0 }

/-- R3: a fitted channel is sampled; an unfitted one is not. -/
def State.sampledChan (s : State) (raw : PerChan Nat) (c : Chan) : ChanRec :=
  let k := s.cfg.calib.get c
  if k.fitted then (s.chans.get c).sampled (raw.get c) (calibrated (chanRange c) k (raw.get c)) else s.chans.get c

/-- R3, R11: every channel takes its sample, and a committed corner map takes effect. -/
def sampleChans (raw : PerChan Nat) (s : State) : State :=
  { s with chans := .make (s.sampledChan raw), map := s.cfg.cornerMap }

/-! ## Corners -/

/-- R142: a corner's flag is set when its mapped height channel has entered HELD or FAILED. -/
def markLost (before : PerChan ChanRec) (s : State) (k : Corner) : State :=
  let old := (before.get (.h (s.map.get k).height)).st
  let new := (s.heightChan k).st
  if new ≠ old ∧ (new = some .held ∨ new = some .failed) then s.setCorner k { s.corner k with wasOut := true } else s

/-- R10: the filter's coefficient. -/
def filterDivisor (m : CornerMode) (v : SpeedState) : Nat := if m = .kneel ∨ v = .standstill then 8 else 64

/-- R10: the filtered height after a VALID sample of the mapped height channel. A corner without one is seeded by whatever
channel is mapped to it, however long that channel has been VALID (DESIGN CHOICE, log entry 42). -/
def filterStep (old : Option Int) (value : Int) (k : Nat) : Int :=
  match old with
  | none => 16 * value
  | some f => f + rdiv (16 * value - f) k

/-- R136, R139, R140: the bottomed flag after a sample that updates the filtered height, with what follows from it. -/
def bottomCorner (s : State) (k : Corner) : State :=
  match (s.corner k).reported with
  | none => s
  | some h =>
    if h ≤ -95 then
      let t := s.setCorner k { s.corner k with bottomed := true }
      let u := if (s.corner k).valve = .exhaust then withdraw .bottomed t k else t
      if (s.corner k).bottomed = false ∧ (s.corner k).frozen = .absent then captureLoad u k else u
    else if (s.corner k).bottomed then clearLoad (s.setCorner k { s.corner k with bottomed := false }) k
    else s

/-- R10: a corner's filter, and its bottomed flag with it. -/
def filterCorner (s : State) (k : Corner) : State :=
  match (s.heightChan k).validFigure with
  | none => s
  | some v =>
    let c := s.corner k
    bottomCorner (s.setCorner k { c with filtered := some (filterStep c.filtered v (filterDivisor c.mode s.motion.speedState)) }) k

/-- What the levelling unit does at a sample but for its signal to the request handler: modes, filters, bottomed flags, then the tests of both zones (R127, R10,
R136, R148, R153). -/
def levelSample (before : PerChan ChanRec) (s : State) : State :=
  let t := cornersChanged allCorners (allCorners.foldl (markLost before) s)
  zoneTest .rear (zoneTest .front (allCorners.foldl filterCorner t))

/-! ## Supply and air -/

/-- The beginning of SUPPLY_LOW (R122, R135, R178). -/
def supplyBegins (s : State) : State :=
  let t := { s with sam := { s.sam with supplyLow := true, restoreTimer := none }, act.m := .make fun a => { s.act.m.get a with release := true } }
  allCorners.foldl (fun s k => if (s.corner k).valve = .hold then s else withdraw .supply s k) t

/-- R176, R177: the test of SUPPLY_LOW at a sample. -/
def supplySample (s : State) : State :=
  match s.chans.v.usable with
  | none => { s with sam.restoreTimer := none }
  | some v =>
    if s.sam.supplyLow then
      if (s.cfg.thr.trip : Int) + 5 ≤ v then { s with sam.restoreTimer := some (s.sam.restoreTimer.getD (s.now + 200)) }
      else { s with sam.restoreTimer := none }
    else if v < s.cfg.thr.trip then supplyBegins s else s

/-- R179: a comparator after a sample. -/
def comparator (fall rise : Nat) (decided was : Bool) (figure : Option Int) : Bool :=
  match figure with
  | none => false
  | some x => if was && decided then decide ((fall : Int) ≤ x) else decide ((rise : Int) ≤ x)

/-- R135: every corner commanded FILL is commanded HOLD with reason AIR. -/
def withdrawFill (s : State) : State :=
  allCorners.foldl (fun s k => if (s.corner k).valve = .fill then withdraw .air s k else s) s

/-- R103, R180: HOLD_OK has risen; an ARMING hold that it completes enters APPLYING. -/
def holdAirRises (s : State) : State :=
  if s.shc.state = .arming ∧ s.mayApply = true then shcEnter .applying (freshTargets s) else s

/-- R180: HOLD_OK, with its signal to the SHC and the LU. -/
def holdAir (v : Bool) (s : State) : State :=
  if v = s.sam.holdOk then s
  else
    let t := { s with sam.holdOk := v }
    if v then holdAirRises t else withdrawFill t

/-- R180: FILL_OK, with its signal to the LU. -/
def fillAir (v : Bool) (s : State) : State :=
  if v = s.sam.fillOk then s
  else
    let t := { s with sam.fillOk := v }
    if v then t else withdrawFill t

/-- R179: the three comparators at a sample. -/
def airSample (s : State) : State :=
  let t := s.cfg.thr
  let r3 := s.chans.r3.usable
  let r4 := s.chans.r4.usable
  let d := s.sam.sampled
  let hold := comparator t.holdFall t.holdRise d s.sam.holdOk r3
  let fill := comparator t.fillFall t.fillRise d s.sam.fillOk r4
  let rise := comparator t.riseFall t.riseRise d s.sam.riseReserve r4
  fillAir fill (holdAir hold { s with sam := { s.sam with sampled := true, riseReserve := rise } })

/-! ## The sample -/

/-- The records after one MU sample. Where SUPPLY_LOW begins at the sample at which a comparator falls, the two signals
reach the LU in either order. -/
def sampleRecords (raw : PerChan Nat) (s : State) : State :=
  eitherOrder supplySample airSample (auTake (levelSample s.chans (sampleChans raw s)))

/-- One MU sample with everything its signals bring about. The changes it makes to the stop hold, to RISE_RESERVE and to the
zones' FAILED corners reach the request handler in any order (R33). A transition that the SHC has still to make comes first
(R101). -/
def sample (raw : PerChan Nat) (s : State) : State :=
  let t := shcDue s
  rrSignal (fillAll (openRollCall (examineChanges t.grantView (sampleRecords raw t))))

/-- R185 step 3: the period timers start at the first sample, and the part comes into service. The AD's own period is
taken to start there too (log entry 14). -/
def startPeriods (s : State) : State :=
  { s with
    service := .inService
    periods := { sample := some (s.now + 10), coil := some (s.now + 10), brake := some (s.now + 10)
                 levelling := some (s.now + 100), articulation := some (s.now + 20) } }

/-- MEASUREMENT_SAMPLE (R3). -/
def execMeasurementSample (raw : PerChan Nat) (s : State) : Host.Outcome State Fault Refusal :=
  .next <| match s.service with
    | .held => s
    | .publish => s
    | .firstSample => startPeriods (sample raw s)
    | .inService => atExpiry s.periods.sample s fun due t => sample raw { t with periods.sample := some (due + 10) }

end Sys2Proof.Machine
end

