-- ==== Sys2Proof/Machine/Motion.lean ====
section
/-! DEFINITION. The motion record (1.6): a motion frame taken, and the two expiries of its freshness timer. -/
namespace Sys2Proof.Machine

/-- R12, first check: a figure or the gear code is not one the frame may carry. -/
def MotionFrame.refused (f : MotionFrame) : Bool :=
  decide (1500 < f.speed) || decide (1000 < f.brake) || decide (1000 < f.accel) || f.gear.isNone

/-- R99: pull-away, from an accepted frame. -/
def MotionFrame.pullsAway (f : MotionFrame) : Bool :=
  decide (50 ≤ f.accel) && (f.gear == some .forward || f.gear == some .reverse)

/-- R99: what pull-away does to the SHC. -/
def pullAway (s : State) : State :=
  match s.shc.state with
  | .releaseWait => shcGo .releasing s
  | .holdFault => if s.shc.holdRequested then s else shcGo .releasing s
  | .off => s
  | .arming => s
  | .applying => s
  | .established => s
  | .releasing => s

/-- R12: an accepted frame's figures replace those of the record, which becomes FRESH (R13). -/
def MotionRec.accept (m : MotionRec) (now : Nat) (f : MotionFrame) : MotionRec :=
  { m with speed := f.speed, brake := f.brake, accel := f.accel, gear := f.gear.getD .neutral, rolling := some f.rolling
           acceptedAt := some now, freshness := .fresh, timer := some (now + 100) }

/-- R12 to R14, R40, R99, R167: an accepted frame is handed on: the speed state, the pull-away, the articulation unit,
the roll call and the resolver. -/
def acceptMotion (f : MotionFrame) (s : State) : State :=
  let t := speedSignal (speedStateOf .fresh f.speed) { s with motion := s.motion.accept s.now f }
  rrSignal (openRollCall (auTake (if f.pullsAway then pullAway t else t)))

/-- R12: a motion frame of the vehicle computer is checked. -/
def takeMotion (f : MotionFrame) (s : State) : State :=
  if f.refused then { s with motion.refused := satSucc 65535 s.motion.refused }
  else if s.motion.rolling = some f.rolling then { s with motion.repeated := satSucc 65535 s.motion.repeated }
  else acceptMotion f s

/-- The oldest motion frame in the chassis link's buffers, and the buffers without it (R188). -/
def State.oldestMotion (s : State) : Option (RxFrame × List RxFrame) := takeFirst (fun f => f.type == .motion) s.chassis.rx

/-- R12, R23, R188: the motion frame leaves its buffer, its participant is heard, and it is checked. -/
def motionFrame (s : State) : State :=
  match s.oldestMotion with
  | none => s
  | some (f, rest) =>
    let t := { s with chassis.rx := rest }
    match t.participant .chassis f.source with
    | none => t
    | some (n, row) => if row.role = .vehicleComputer then fillAll (takeMotion (readMotion f.data) (hear n row.lease t)) else t

/-- MOTION_FRAME (R12). -/
def execMotionFrame (s : State) : Host.Outcome State Fault Refusal := whenInService s motionFrame

/-- R13: FRESH becomes STALE, and the timer runs on to 300 ms. -/
def goStale (due : Nat) (s : State) : State :=
  rrSignal (fillAll (speedSignal .unknown { s with motion := { s.motion with freshness := .stale, timer := some (due + 200) } }))

/-- STALE_EXPIRY (R13). -/
def execStaleExpiry (s : State) : Host.Outcome State Fault Refusal :=
  whenInService s fun s => if s.motion.freshness = .fresh then atExpiry s.motion.timer s goStale else s

/-- R119: an axle that carries no hold pressure has its modulator released. -/
def releaseUnheld (s : State) : State :=
  { s with act.m := .make fun a =>
      let r := s.act.m.get a
      if s.shc.target a = 0 then { r with release := true } else r }

/-- R13, R119: STALE becomes DEMAND_LOST. -/
def goLost (s : State) : State :=
  rrSignal (releaseUnheld { s with motion := { s.motion with freshness := .demandLost, timer := none } })

/-- DEMAND_LOST_EXPIRY (R13). -/
def execDemandLostExpiry (s : State) : Host.Outcome State Fault Refusal :=
  whenInService s fun s => if s.motion.freshness = .stale then atExpiry s.motion.timer s fun _ t => goLost t else s

end Sys2Proof.Machine
end

