-- ==== Sys2Proof/Machine/Overrides.lean ====
section
/-! DEFINITION. OVERRIDE and its four forms (3.9). -/
namespace Sys2Proof.Machine

/-- An OVERRIDE of a form; one whose form code is outside 1 to 4 is any form's to refuse (R66). -/
def isOverride (form : Nat) (q : Request) : Bool :=
  q.code == reqOverride && (q.byte 2 == form || q.byte 2 == 0 || decide (4 < q.byte 2))

/-- R48, R66: the role check and the form code, before a form's own rule. -/
def overrideChecked (l : Link) (act : Request → State → State) (_ : Nat) (row : PtCfg) (q : Request) (s : State) : State :=
  if mayOverride row.role = false then refuse l q .role s
  else if q.byte 2 = 0 ∨ 4 < q.byte 2 then refuse l q .badField s
  else act q s

/-! ## Form (a) (R67) -/

/-- The orphaned entry a form (a) names. -/
def State.orphanNamed (s : State) (link : Link) (node tag : Nat) : Option Entry :=
  match s.participant link node with
  | none => none
  | some (n, _) => (s.findEntry n tag).filter Entry.orphaned

/-- R67. -/
def overrideA (l : Link) (q : Request) (s : State) : State :=
  match linkOfByte (q.byte 7) with
  | none => refuse l q .badField s
  | some owner =>
    if s.motion.speedState = .standstill ∧ s.shc.state = .established then
      match s.orphanNamed owner (q.byte 6) (q.byte 3) with
      | none => refuse l q .noEntry s
      | some e =>
        let r := q.reply .done
        answer l { r with marks := { r.marks with notClosed := e.isOpen }, tail := .summary (s.summary e true) }
          (rrSignal (retire e s))
    else refuse l q .notStandstill s

/-- OVERRIDE form (a) (R67). -/
def execOverrideOrphan (l : Link) (s : State) : Host.Outcome State Fault Refusal :=
  whenInService s (serve l (isOverride 1) (overrideChecked l (overrideA l)))

/-! ## Form (b) (R68, R155) -/

/-- R68. -/
def overrideZoneOf (l : Link) (q : Request) (z : Zone) (s : State) : State :=
  if (s.zone z).state = .stuckLow then answer l (q.reply .done) (rrSignal (s.setZone z { s.zone z with override := true }))
  else refuse l q .noEntry s

def overrideB (l : Link) (q : Request) (s : State) : State :=
  match zoneOfCode (q.byte 5) with
  | some .front => overrideZoneOf l q .front s
  | some .rear => overrideZoneOf l q .rear s
  | some .whole => refuse l q .badField s
  | none => refuse l q .badField s

/-- OVERRIDE form (b) (R68). -/
def execOverrideZone (l : Link) (s : State) : Host.Outcome State Fault Refusal :=
  whenInService s (serve l (isOverride 2) (overrideChecked l (overrideB l)))

/-! ## Form (c) (R69) -/

/-- R69. -/
def overrideC (l : Link) (q : Request) (s : State) : State :=
  match s.it.rollCall with
  | .awaiting => refuse l q .invalid s
  | .opened => answer l (q.reply .done) (closeRollCall s)
  | .closed =>
    let r := q.reply .done
    answer l { r with marks := { r.marks with alreadyClosed := true } } s

/-- OVERRIDE form (c) (R69). -/
def execOverrideRollCall (l : Link) (s : State) : Host.Outcome State Fault Refusal :=
  whenInService s (serve l (isOverride 3) (overrideChecked l (overrideC l)))

/-! ## Form (d) (R70, R87) -/

/-- R87: the latch clears when no setting condition is in force. -/
def acknowledge (s : State) : State :=
  let r := s.rr.follow
  { s with rr := { r with redLatch := r.redSet.any && r.redLatch } }

/-- R70: the reply goes into the place R48 found free, and then the resolver recomputes the record (R87). A restraint notice
of this event takes its slot before the free slots are filled, so of the two it takes a lone free slot (DESIGN CHOICE,
log entry 48). -/
def overrideD (l : Link) (q : Request) (s : State) : State :=
  let t := acknowledge s
  let c := t.rr.redSet
  let r := q.reply (if t.rr.redLatch then .donePartly else .done)
  recompute
    (answer l (if t.rr.redLatch then { r with tail := .redConditions c.doorAtSpeed c.creepCeiling c.holdFaultLong c.tagFault } else r) t)

/-- OVERRIDE form (d) (R70). -/
def execOverrideAcknowledge (l : Link) (s : State) : Host.Outcome State Fault Refusal :=
  whenInService s (serve l (isOverride 4) (overrideChecked l (overrideD l)))

end Sys2Proof.Machine
end

