-- ==== Sys2Proof/Machine/Reports.lean ====
section
/-! DEFINITION. REPORT (3.8): its beginning, its entries and its gap timer. -/
namespace Sys2Proof.Machine

/-- R62: a new report context. -/
def newReport (count now code ref : Nat) : ReportCtx :=
  { expected := count, received := 0, staged := [], lastFrame := now, code := code, ref := ref }

/-- R62: the abandonment reply of the context a REPORT_BEGIN has ended, if there was one. -/
def endOld (l : Link) (node : Nat) (old : Option ReportCtx) (s : State) : State :=
  match old with
  | none => s
  | some c => s.onLink l (LinkRec.placeReplyIfRoom (abandonReply node c))

/-- R62: a REPORT_BEGIN starts a context, or with count 0 completes at once. -/
def reportBeginRequest (l : Link) (n : Nat) (row : PtCfg) (q : Request) (s : State) : State :=
  let old := (s.vol n).report
  if 7 < q.byte 2 then refuse l q .badField s
  else if q.byte 2 = 0 then
    let c := completeReport n row [] (q.reply .done) s
    endOld l row.node old (answer l c.2 c.1)
  else endOld l row.node old (s.updVol n fun v => { v with report := some (newReport (q.byte 2) s.now q.code q.ref) })

/-- REPORT_BEGIN (R62). -/
def execReportBegin (l : Link) (s : State) : Host.Outcome State Fault Refusal :=
  whenInService s (serve l (Request.is reqReportBegin) (reportBeginRequest l))

/-- R63: the content of a frame is staged under its tag: the last frame wins and goes to the end. -/
def stage (f : EntryFields) (staged : List EntryFields) : List EntryFields := (staged.filter fun x => x.tag != f.tag) ++ [f]

/-- R63: a REPORT_ENTRY is staged, and completes the report when the count is reached. The one reply of a completed report
returns the code and the reference of the frame that completed it (DESIGN CHOICE, log entry 13). -/
def reportEntryRequest (l : Link) (n : Nat) (row : PtCfg) (q : Request) (s : State) : State :=
  match (s.vol n).report with
  | none => refuse l q .invalid s
  | some c =>
    let staged := stage q.fields c.staged
    if c.expected ≤ c.received + 1 then
      let d := completeReport n row staged (q.reply .done) s
      answer l d.2 d.1
    else
      s.updVol n fun v =>
        { v with report := some { c with received := c.received + 1, staged := staged, lastFrame := s.now, code := q.code, ref := q.ref } }

/-- REPORT_ENTRY (R63). -/
def execReportEntry (l : Link) (s : State) : Host.Outcome State Fault Refusal :=
  whenInService s (serve l (Request.is reqReportEntry) (reportEntryRequest l))

/-- REPORT_GAP_EXPIRY (R63): of the context of a PT row, 200 ms after its latest frame. -/
def execReportGapExpiry (row : Nat) (s : State) : Host.Outcome State Fault Refusal :=
  whenInService s fun s =>
    match s.cfg.row row, (s.vol row).report with
    | some r, some c => fillAll (abandonReport row r (s.reach (c.lastFrame + 200)))
    | _, _ => s

end Sys2Proof.Machine
end

