-- ==== Sys2Proof/Machine/Requests.lean ====
section
/-! DEFINITION. The requests on entries, the lease expiry and the roll call's window (chapters 2 and 3): ASSERT, AMEND,
RELEASE, RELEASE_ALL, LOOKUP, LIST and its further frames, PRESENCE and SET_RIDE_LEVEL. -/
namespace Sys2Proof.Machine

/-- The driver console's rights apply to row (R51). -/
def PtCfg.console (row : PtCfg) : Bool := row.role == .driverConsole

def State.standing (s : State) : Bool := s.motion.speedState == .standstill

def Reply.withSummary (r : Reply) (s : Summary) : Reply := { r with tail := .summary s }

/-! ## ASSERT (R53 to R55) -/

/-- R54: the entry is created, and the reply is DONE with its summary. -/
def createByAssert (l : Link) (n : Nat) (row : PtCfg) (kind : Kind) (q : Request) (s : State) : State :=
  let e := s.newEntry n row kind q.fields
  let t := addEntry e s
  let clamped := kind == .kneel && q.fields.depth.map clampDepth != q.fields.depth
  let r := q.reply .done
  answer l { r with marks := { r.marks with clamped := clamped }, tail := .summary (t.summary e false) }
    (rrSignal (notify [t.creationNotice e] t))

/-- R39: the notice of an adoption. -/
def adoptionCauses (old new : Entry) : NoticeCauses :=
  { NoticeCauses.none with adoption := true, fieldChange := fieldsDiffer old new }

def codeFor (k : KeptSet) : ReplyCode := if k.any then .donePartly else .done

/-- R55: the owner's orphaned entry is adopted. -/
def adoptByAssert (l : Link) (row : PtCfg) (e : Entry) (q : Request) (s : State) : State :=
  let a := adoptEntry row.console s.standing q.fields e
  let t := putEntry a.entry s
  let r := q.reply (codeFor a.kept)
  answer l
    { r with marks := { r.marks with clamped := a.clamped, adopted := true }, kept := a.kept, tail := .summary (t.summary a.entry false) }
    (rrSignal (notify [.entryState (t.summary a.entry false) (adoptionCauses e a.entry)] t))

/-- R53: the checks of an ASSERT, and what they lead to. -/
def assertRequest (l : Link) (n : Nat) (row : PtCfg) (q : Request) (s : State) : State :=
  match checkFields row.role q.fields, kindOfCode q.fields.kind with
  | some why, _ => refuse l q why s
  | none, none => refuse l q .badField s
  | none, some kind =>
    match s.findEntry n q.fields.tag with
    | some e => if e.orphaned then adoptByAssert l row e q s else refuse l q .duplicate s
    | none => if s.hasPlace n then createByAssert l n row kind q s else refuse l q .tableFull s

/-- ASSERT (R53). -/
def execAssert (l : Link) (s : State) : Host.Outcome State Fault Refusal :=
  whenInService s (serve l (Request.is reqAssert) (assertRequest l))

/-! ## AMEND (R56) -/

/-- R56: an AMEND whose codes pass and whose entry stands. -/
def amendFound (l : Link) (row : PtCfg) (e : Entry) (q : Request) (s : State) : State :=
  let a := amendEntry row.console s.standing q.fields e
  let t := putEntry a.entry s
  let r := q.reply (codeFor a.kept)
  let u := if fieldsDiffer e a.entry then
      rrSignal (notify [.entryState (t.summary a.entry false) { NoticeCauses.none with fieldChange := true }] t)
    else s
  answer l
    { r with marks := { r.marks with clamped := a.clamped }, kept := a.kept, tail := .summary (t.summary a.entry false) } u

/-- R56. -/
def amendRequest (l : Link) (n : Nat) (row : PtCfg) (q : Request) (s : State) : State :=
  let f := q.fields
  if 7 < f.tag ∨ 5 < f.kind ∨ 3 < f.zone ∨ 3 < f.opening then refuse l q .badField s
  else
    match (if f.tag = 7 then none else s.findEntry n f.tag) with
    | none => refuse l q .noEntry s
    | some e => amendFound l row e q s

/-- AMEND (R56). -/
def execAmend (l : Link) (s : State) : Host.Outcome State Fault Refusal :=
  whenInService s (serve l (Request.is reqAmend) (amendRequest l))

/-! ## RELEASE and RELEASE_ALL (R57, R58) -/

/-- R57. -/
def releaseRequest (l : Link) (n : Nat) (_ : PtCfg) (q : Request) (s : State) : State :=
  match (if 6 < q.byte 2 then none else s.findEntry n (q.byte 2)) with
  | none => refuse l q .noEntry s
  | some e =>
    if e.isOpen then answer l ((q.reply (.refused .doorOpen)).withSummary (s.summary e false)) s
    else answer l ((q.reply .done).withSummary (s.summary e true)) (rrSignal (retire e s))

/-- RELEASE (R57). -/
def execRelease (l : Link) (s : State) : Host.Outcome State Fault Refusal :=
  whenInService s (serve l (Request.is reqRelease) (releaseRequest l))

/-- R58: the entries a RELEASE_ALL reaches, and those of them it retires. -/
def ownTagged (n : Nat) (e : Entry) : Bool := e.owner == n && e.tag != 7
def releasable (n : Nat) (e : Entry) : Bool := ownTagged n e && !e.isOpen

/-- R58. -/
def releaseAllRequest (l : Link) (n : Nat) (_ : PtCfg) (q : Request) (s : State) : State :=
  let gone := s.it.entries.filter (releasable n)
  let left := s.it.entries.countP fun e => ownTagged n e && e.isOpen
  let t := { s with it.entries := s.it.entries.filter fun e => !releasable n e }
  answer l { q.reply (if left = 0 then .done else .donePartly) with tail := .releaseAll gone.length left }
    (rrSignal (notify (gone.map s.retiredNotice) t))

/-- RELEASE_ALL (R58). -/
def execReleaseAll (l : Link) (s : State) : Host.Outcome State Fault Refusal :=
  whenInService s (serve l (Request.is reqReleaseAll) (releaseAllRequest l))

/-! ## LOOKUP (R59) -/

/-- R59. -/
def lookupRequest (l : Link) (n : Nat) (_ : PtCfg) (q : Request) (s : State) : State :=
  if 7 < q.byte 2 then refuse l q .badField s
  else
    match s.findEntry n (q.byte 2) with
    | some e => answer l ((q.reply .done).withSummary (s.summary e false)) s
    | none =>
      let r := q.reply .done
      answer l { r with marks := { r.marks with notFound := true } } s

/-- LOOKUP (R59). -/
def execLookup (l : Link) (s : State) : Host.Outcome State Fault Refusal :=
  whenInService s (serve l (Request.is reqLookup) (lookupRequest l))

/-! ## LIST (R60, R61) -/

/-- R60: an entry matches the kind filter. -/
def matchesKind (code : Nat) (e : Entry) : Bool := code == 0 || codeOfKind e.kind == code

/-- R60: an entry matches the zone filter. -/
def matchesZone (code : Nat) (e : Entry) : Bool := code == 0 || codeOfZone e.zone == code || e.zone == .whole

/-- R60: an entry matches the owner filter. -/
def State.matchesOwner (s : State) (node link : Nat) (e : Entry) : Bool :=
  node == 0 || match linkOfByte link with
    | none => false
    | some l => (s.participant l node).map (·.1) == some e.owner

/-- R60: the snapshot. -/
def State.snapshot (s : State) (q : Request) : List Summary :=
  (s.it.entries.filter fun e =>
    matchesKind (q.byte 3) e && matchesZone (q.byte 5) e && s.matchesOwner (q.byte 6) (q.byte 7) e).map fun e => s.summary e false

/-- R60, R61: the reply of a LIST: its first frame, and the context for the others. On a link in BUS_OFF no context begins,
so that all its frames are dropped at the taking (DESIGN CHOICE, log entry 44). -/
def startList (l : Link) (q : Request) (found : List Summary) (s : State) : State :=
  match found with
  | [] => answer l (listReply q.source q.ref 0 true none) s
  | e :: rest =>
    answer l (listReply q.source q.ref (rest.length + 1) rest.isEmpty (some e))
      (s.onLink l fun r => if r.isOff then r else { r with listCtx := listRest q.source q.ref (rest.length + 1) rest })

/-- R60: a filter carries an invalid code: a kind, a zone, an owner's node id or link that names none. -/
def badFilter (q : Request) : Bool :=
  decide (5 < q.byte 3) || decide (3 < q.byte 5) || decide (127 < q.byte 6) || (q.byte 6 != 0 && decide (1 < q.byte 7))

/-- R60. -/
def listRequest (l : Link) (_ : Nat) (_ : PtCfg) (q : Request) (s : State) : State :=
  if badFilter q then refuse l q .badField s else startList l q (s.snapshot q) s

/-- LIST (R60). -/
def execList (l : Link) (s : State) : Host.Outcome State Fault Refusal :=
  whenInService s (serve l (Request.is reqList) (listRequest l))

/-- LIST_FRAME (R61). -/
def execListFrame (l : Link) (s : State) : Host.Outcome State Fault Refusal :=
  whenInService s fun s => fillAll (s.onLink l LinkRec.placeListFrame)

/-! ## PRESENCE and SET_RIDE_LEVEL (R71, R72) -/

/-- R71. -/
def presenceRequest (l : Link) (_ : Nat) (_ : PtCfg) (q : Request) (s : State) : State := answer l (q.reply .done) s

/-- PRESENCE (R71). -/
def execPresence (l : Link) (s : State) : Host.Outcome State Fault Refusal :=
  whenInService s (serve l (Request.is reqPresence) (presenceRequest l))

/-- R130: a ride level handed over; a level already held changes nothing. -/
def takeRide (level : RideLevel) (s : State) : State := if level = s.lu.ride then s else changeRide level .request s

/-- R72. -/
def rideRequest (l : Link) (_ : Nat) (row : PtCfg) (q : Request) (s : State) : State :=
  if mayOverride row.role = false then refuse l q .role s
  else if q.byte 2 = 1 then answer l (q.reply .done) (takeRide .normal s)
  else if q.byte 2 = 2 then
    if s.motion.freshness = .fresh ∧ s.motion.speed ≤ 200 then answer l (q.reply .done) (takeRide .raised s)
    else refuse l q .moving s
  else refuse l q .badField s

/-- SET_RIDE_LEVEL (R72). -/
def execSetRideLevel (l : Link) (s : State) : Host.Outcome State Fault Refusal :=
  whenInService s (serve l (Request.is reqSetRideLevel) (rideRequest l))

/-! ## Leases and the roll-call window (R24, R42) -/

/-- R38: the owner's entries that a lease expiry orphans. -/
def orphanable (n : Nat) (e : Entry) : Bool := e.owner == n && !e.orphaned

/-- R24, R38: the entries of a SILENT participant are orphaned, with one notice each. -/
def orphanEntries (n : Nat) (s : State) : State :=
  let t := { s with it.entries := s.it.entries.map fun e => if orphanable n e then { e with orphaned := true } else e }
  notify ((s.it.entries.filter (orphanable n)).map fun e =>
    .entryState (s.summary { e with orphaned := true } false) { NoticeCauses.none with orphaning := true }) t

/-- R24: the participant goes SILENT, its report is abandoned and its entries are orphaned. -/
def goSilent (n : Nat) (row : PtCfg) (s : State) : State :=
  let t := abandonReport n row s
  fillAll (rrSignal (orphanEntries n (t.updVol n fun v => { v with presence := .silent, deadline := none })))

/-- LEASE_EXPIRY (R24): of the participant of a PT row. -/
def execLeaseExpiry (row : Nat) (s : State) : Host.Outcome State Fault Refusal :=
  whenInService s fun s =>
    match s.cfg.row row with
    | none => s
    | some c => if (s.vol row).presence = .present then atExpiry (s.vol row).deadline s fun _ t => goSilent row c t else s

/-- ROLL_CALL_WINDOW_EXPIRY (R42). -/
def execRollCallWindowExpiry (s : State) : Host.Outcome State Fault Refusal :=
  whenInService s fun s =>
    if s.it.rollCall = .opened then atExpiry s.it.window s fun _ t => fillAll (closeRollCall t) else s

end Sys2Proof.Machine
end

