-- ==== Sys2Proof/Machine/Restraint.lean ====
section
/-! DEFINITION. The restraint resolver's own events (chapter 4): a changed input, its repeat timer and its hold-fault
timer. -/
namespace Sys2Proof.Machine

/-- RESTRAINT_RECOMPUTE (R74): one changed input is taken and the record recomputed. The first after reset is step 2 of the start-up (R185). -/
def execRestraintRecompute (s : State) : Host.Outcome State Fault Refusal :=
  .next <| match s.service with
    | .held => s
    | .publish => startUpPublish s
    | .firstSample => fillAll (recompute (takeInput s))
    | .inService => fillAll (recompute (takeInput s))

/-- R83: the notice is placed again with the record and the change count unchanged. -/
def repeatNotice (due : Nat) (s : State) : State :=
  let t := { s with rr.repeatTimer := some (due + 1000) }
  match s.rr.published with
  | none => t
  | some r => fillAll (restraintNotice r s.rr.count t)

/-- RESTRAINT_REPEAT (R83). -/
def execRestraintRepeat (s : State) : Host.Outcome State Fault Refusal :=
  whenInService s fun s => atExpiry s.rr.repeatTimer s repeatNotice

/-- R86: HOLD_FAULT_LONG begins, and the record is recomputed. -/
def holdFaultLong (s : State) : State := fillAll (recompute { s with rr := { s.rr with holdFaultTimer := none, holdFaultLong := true } })

/-- HOLD_FAULT_TIMER_EXPIRY (R86). -/
def execHoldFaultTimerExpiry (s : State) : Host.Outcome State Fault Refusal :=
  whenInService s fun s => atExpiry s.rr.holdFaultTimer s fun _ t => holdFaultLong t

end Sys2Proof.Machine
end

