-- ==== Sys2Proof/Machine/Validation.lean ====
section
/-! DEFINITION. The validation of a commit (R196): the range of every parameter and every condition of the manual that
names it, tested in ascending index. -/
namespace Sys2Proof.Machine

/-! ## Ranges -/

def within (lo hi v : Int) : Bool := decide (lo ≤ v) && decide (v ≤ hi)

/-- Chapter 6's ranges of the limits and of an axle's constants. -/
def rangeA (record field : Nat) (v : Int) : Bool :=
  if record = 0 then
    match field with
    | 1 => within 600 950 v
    | 2 => within 400 800 v
    | _ => within 0 1 v
  else
    match field with
    | 1 => within 300 900 v
    | 2 => within 300 2500 v
    | 3 => within 10 99 v
    | 4 => within 0 100 v
    | _ => within 1000 15000 v

/-- 1.1's ranges of a calibration, and R11's of the corner map. -/
def rangeB (record field : Nat) (v : Int) : Bool :=
  if record ≤ 31 then
    match field with
    | 2 => within (-8192) 8191 v
    | 3 => within 0 4095 v
    | 4 => within 900 1100 v
    | _ => within 0 1 v
  else within 1 8 v

/-- R22's ranges of a PT row. A door number 0 is an absent one. -/
def rangeRow (field : Nat) (v : Int) : Bool :=
  match field with
  | 2 => within 1 2 v
  | 3 => within 1 127 v
  | 4 => within 1 5 v
  | 5 => within 0 4 v
  | 6 => within 100 2000 v && v % 10 == 0
  | _ => within 0 1 v

def rangeFilter (field : Nat) (v : Int) : Bool :=
  match field with
  | 1 => within 0 1 v
  | 2 => within 1 2 v
  | _ => within 1 127 v

/-- R179's figures and R176's trip points. -/
def rangeThr (field : Nat) (v : Int) : Bool :=
  match field with
  | 1 => v == 160 || v == 175 || v == 190 || v == 205
  | _ => within 0 1250 v

/-- R196: a parameter lies in its range. -/
def inParamRange (index : Nat) (v : Int) : Bool :=
  let r := recordOf index
  let f := fieldOf index
  match groupOf index with
  | 1 => rangeA r f v
  | 2 => rangeB r f v
  | 3 =>
    if r ≤ 16 then rangeRow f v
    else if r ≤ 38 then rangeFilter f v
    else if r = 40 then within 0 1000 v
    else if r = 41 then within 80 530 v
    else if r = 42 then within 0 300 v
    else rangeThr f v
  | _ => false

/-! ## Conditions, each at the highest-indexed parameter it concerns -/

/-- R3: the channels that a commit may not leave unfitted. -/
def mustFit : Chan → Bool
  | .b _ => true
  | .r3 => true
  | .r4 => true
  | .j => true
  | .s => true
  | .t => true
  | .g => true
  | .v => true
  | .h _ => false
  | .p _ => false
  | .d1 => false
  | .d2 => false
  | .d3 => false
  | .d4 => false

/-- R108: a threshold lies below p_max. -/
def condA (p : Params) (record field : Nat) : Bool :=
  match axleOfNumber record, field with
  | some a, 4 => decide ((p.axles.get a).threshold < p.pMax)
  | _, _ => true

/-- R3, R11. -/
def condB (p : Params) (record field : Nat) : Bool :=
  if record ≤ 31 then
    match chanOfNumber record, field with
    | some c, 1 => !mustFit c || (p.calib.get c).fitted
    | _, _ => true
  else
    match cornerOfNumber (record - 40), field with
    | some k, 1 => (p.calib.get (.h (p.cornerMap.get k).height)).fitted
    | some k, 2 => (p.calib.get (.p (p.cornerMap.get k).pressure)).fitted
    | _, _ => true

/-- The link of a role (2.1). -/
def linkOfRole : Role → Link
  | .doorNode => .body
  | .rampNode => .body
  | .driverConsole => .body
  | .vehicleComputer => .chassis
  | .serviceTool => .chassis

/-- A row of lower number for which a test holds. -/
def lowerRow (p : Params) (n : Nat) (f : PtCfg → Bool) : Bool := (p.pt.take (n - 1)).any f

/-- R22, at a row's fields. -/
def condRow (p : Params) (n field : Nat) : Bool :=
  match p.row n with
  | none => true
  | some r =>
    match field with
    | 3 => !(r.inUse && lowerRow p n fun o => o.inUse && o.link == r.link && o.node == r.node)
    | 4 =>
      r.link == linkOfRole r.role &&
      !(r.inUse && r.role != .doorNode && lowerRow p n fun o => o.inUse && o.role == r.role) &&
      (n != 16 || p.pt.any fun o => o.inUse && o.role == .vehicleComputer)
    | 5 =>
      (r.role == .doorNode) == r.door.isSome &&
      !(r.role == .doorNode && lowerRow p n fun o => o.role == .doorNode && o.door == r.door)
    | _ => true

/-- R25: a row's owner holds an entry or a report context. -/
def State.rowBusy (s : State) (n : Nat) : Bool := s.it.entries.any (fun e => e.owner == n) || (s.vol n).report.isSome

/-- R25: a busy in-use row keeps its identity, its role, its door and its place. -/
def keepsRow (s : State) (p : Params) (n field : Nat) : Bool :=
  match s.cfg.row n, p.row n with
  | some old, some new =>
    !(old.inUse && s.rowBusy n) || decide (5 < field) || ptField old field == ptField new field
  | _, _ => true

/-- 11.2: MOTION on the chassis link only, and the lowest source at or below the highest. -/
def condFilter (body : Bool) (f : Option Filter) (field : Nat) : Bool :=
  match f, field with
  | some x, 2 => !(body && x.type == .motion)
  | some x, 4 => decide (x.low ≤ x.high)
  | _, _ => true

/-- R179: a rising figure is above its falling figure. -/
def condThr (t : Thresholds) (field : Nat) : Bool :=
  match field with
  | 3 => decide (t.holdFall < t.holdRise)
  | 5 => decide (t.fillFall < t.fillRise)
  | 7 => decide (t.riseFall < t.riseRise)
  | _ => true

/-- R196: every condition tested at a parameter holds. -/
def State.paramConds (s : State) (p : Params) (index : Nat) : Bool :=
  let r := recordOf index
  let f := fieldOf index
  match groupOf index with
  | 1 => condA p r f
  | 2 => condB p r f
  | 3 =>
    if r ≤ 16 then condRow p r f && keepsRow s p r f
    else if r ≤ 28 then condFilter false (nth p.chassisFilters (r - 20)) f
    else if r ≤ 38 then condFilter true (nth p.bodyFilters (r - 30)) f
    else if r = 50 then condThr p.thr f
    else true
  | _ => true

/-- R196: the configuration in force with the staged values laid over it. -/
def State.resulting (s : State) : Params := s.store.staging.foldl (fun p v => p.withValue v.1 v.2) s.cfg

/-- The number a parameter of the resulting configuration has in the store. -/
def State.resultingValue (s : State) (index : Nat) : Int :=
  match s.store.staging.find? fun v => v.1 == index with
  | some v => v.2
  | none => (s.cfg.value index).getD 0

/-- R196: the first parameter, in ascending index, that fails. -/
def State.firstInvalid (s : State) : Option Nat :=
  let p := s.resulting
  allIndexes.find? fun i => !(inParamRange i (s.resultingValue i) && s.paramConds p i)

end Sys2Proof.Machine
end

