-- ==== Sys2Proof/Machine/Store.lean ====
section
/-! DEFINITION. The configuration store's requests and its bank write (11.6), RESTART (R198) and the diagnostic query
(R199). -/
namespace Sys2Proof.Machine

/-- The service tool's requests: any other participant is refused ROLE. -/
def fromTool (l : Link) (act : Request → State → State) (_ : Nat) (row : PtCfg) (q : Request) (s : State) : State :=
  if row.role = .serviceTool then act q s else refuse l q .role s

/-- R195, R196: an ACTIVE SERVICE entry carries LEVEL_FREEZE. -/
def State.serviceFreeze (s : State) : Bool :=
  s.it.entries.any fun e => e.kind == .service && e.state == .active && e.effects.levelFreeze

/-- R196, R198: standstill with the stop hold ESTABLISHED. -/
def State.heldStill (s : State) : Bool := s.motion.speedState == .standstill && s.shc.state == .established

/-! ## CONFIG_WRITE and CONFIG_DISCARD (R195) -/

/-- A value staged under its index, in place of an earlier one. -/
def stageValue (index : Nat) (v : Int) (staging : List (Nat × Int)) : List (Nat × Int) :=
  staging.filter (fun x => x.1 != index) ++ [(index, v)]

/-- R195. -/
def configWrite (l : Link) (q : Request) (s : State) : State :=
  let index := pairAt q.data 2
  if allIndexes.contains index = false then refuse l q .badField s
  else if groupOf index = 1 ∧ s.cfg.lock = true then refuse l q .locked s
  else if s.motion.speedState ≠ .standstill then refuse l q .notStandstill s
  else if groupOf index = 2 ∧ s.serviceFreeze = false then refuse l q .locked s
  else answer l (q.reply .done) { s with store.staging := stageValue index (signedPair (pairAt q.data 4)) s.store.staging }

/-- CONFIG_WRITE (R195). -/
def execConfigWrite (l : Link) (s : State) : Host.Outcome State Fault Refusal :=
  whenInService s (serve l (Request.is reqConfigWrite) (fromTool l (configWrite l)))

/-- R195. -/
def configDiscard (l : Link) (q : Request) (s : State) : State := answer l (q.reply .done) { s with store.staging := [] }

/-- CONFIG_DISCARD (R195). -/
def execConfigDiscard (l : Link) (s : State) : Host.Outcome State Fault Refusal :=
  whenInService s (serve l (Request.is reqConfigDiscard) (fromTool l (configDiscard l)))

/-! ## CONFIG_COMMIT (R196) -/

/-- R3: a channel that becomes unfitted loses its state, value and timers, and its raw field keeps 0. -/
def ChanRec.unfit (r : ChanRec) : ChanRec := { r with raw := 0, st := none, value := none, failTime := 0, recTime := 0 }

def State.refit (s : State) (p : Params) (c : Chan) : ChanRec :=
  if (s.cfg.calib.get c).fitted = true ∧ (p.calib.get c).fitted = false then (s.chans.get c).unfit else s.chans.get c

/-- R25: a row comes into use, leaves it, or changes its identity: its link and node id (R23), or its role, which R25 names
beside them (DESIGN CHOICE, log entry 24). -/
def newParticipant (old new : PtCfg) : Bool :=
  old.inUse != new.inUse || old.link != new.link || old.node != new.node || old.role != new.role

def rePt (old new : List PtCfg) (v : List PtVol) : List PtVol :=
  ((old.zip new).zip v).map fun x => if newParticipant x.1.1 x.1.2 then .reset else x.2

/-- R196, R197: the staged values are applied at one event, and the bank write begins anew. A channel that becomes unfitted
no longer contributes to the resolver's inputs (R3). -/
def applyCommit (s : State) : State :=
  let p := s.resulting
  rrSignal
    { s with
      cfg := p
      store := { s.store with staging := [], refusal := none, writing := some p }
      chans := .make (s.refit p)
      pt := rePt s.cfg.pt p.pt s.pt }

/-- R196 step 3: the staged groups may be committed. -/
def State.mayCommit (s : State) : Bool :=
  (!(s.store.staging.any fun v => groupOf v.1 == 2) || s.serviceFreeze) &&
    (!(s.store.staging.any fun v => groupOf v.1 == 1) || !s.cfg.lock)

/-- R196. -/
def configCommit (l : Link) (q : Request) (s : State) : State :=
  if s.heldStill = false then refuse l q .notStandstill s
  else if s.mayCommit = false then refuse l q .locked s
  else
    match s.firstInvalid with
    | some i => answer l { q.reply (.refused .invalid) with tail := .parameter i } { s with store.refusal := some i }
    | none => answer l (q.reply .done) (applyCommit s)

/-- CONFIG_COMMIT (R196). -/
def execConfigCommit (l : Link) (s : State) : Host.Outcome State Fault Refusal :=
  whenInService s (serve l (Request.is reqConfigCommit) (fromTool l (configCommit l)))

/-- R197: the write is complete and verified: the written bank becomes current and the commit count rises. -/
def StoreRec.written (c : StoreRec) : StoreRec :=
  match c.writing with
  | none => c
  | some p =>
    { c with
      bank1 := if c.secondCurrent then p else c.bank1
      bank2 := if c.secondCurrent then c.bank2 else p
      secondCurrent := !c.secondCurrent, writing := none, commits := (c.commits + 1) % 65536 }

/-- BANK_WRITE_COMPLETE (R197). -/
def execBankWriteComplete (s : State) : Host.Outcome State Fault Refusal :=
  whenInService s fun s => { s with store := s.store.written }

/-! ## RESTART (R198, R184) -/

/-- R198. -/
def restartRequest (l : Link) (q : Request) (s : State) : State :=
  if s.heldStill then answer l (q.reply .done) { s with restart := some { due := s.now + 100, replySent := false } }
  else refuse l q .notStandstill s

/-- RESTART (R198). -/
def execRestart (l : Link) (s : State) : Host.Outcome State Fault Refusal :=
  whenInService s (serve l (Request.is reqRestart) (fromTool l (restartRequest l)))

/-! ## DIAGNOSTIC_QUERY (R199) -/

def codeOfValve : Valve → Int
  | .hold => 1
  | .fill => 2
  | .exhaust => 3

def codeOfLock : Lock → Int
  | .engaged => 1
  | .free => 2

def codeOfLine : Line → Int
  | .asserted => 1
  | .clear => 2

def codeOfLamp : Lamp → Int
  | .on => 1
  | .off => 2

/-- R199: the report of an actuator channel, its command and readback as numbers. -/
def ActRec.report {κ : Type} (a : ActRec κ) (code : κ → Int) (readback : Option Int) : ActReport :=
  { command := a.command.map code, release := a.release, overridden := a.overridden, coil := a.coil, persist := a.persist
    failed := a.failed, driven := a.driven, readback := readback }

/-- R199: actuator channel n of the table of 1.7, 1 to 20. -/
def State.actReport (s : State) (n : Nat) : Option ActReport :=
  if n ≤ 4 then (axleOfNumber n).map fun a => (s.act.m.get a).report Int.ofNat (s.modulatorReadback a)
  else if n ≤ 12 then
    (cornerOfNumber (n - 4)).map fun k => (s.act.c.get k).report codeOfValve (some (codeOfValve (valveReadback (s.act.c.get k))))
  else
    match n with
    | 13 => some (s.act.dp.report Int.ofNat (dampingReadback s.chans.d1 s.chans.d2))
    | 14 => some (s.act.dn.report Int.ofNat (dampingReadback s.chans.d3 s.chans.d4))
    | 15 => some (s.act.ts.report id s.tagReadback)
    | 16 => some (s.act.tl.report codeOfLock (some (codeOfLock (lockReadback s.act.tl))))
    | 17 => some (s.act.line.report codeOfLine (some (codeOfLine (lineReadback s.act.line))))
    | 18 => some (s.act.amber.report codeOfLamp (some (codeOfLamp (lampReadback s.act.amber))))
    | 19 => some (s.act.red.report codeOfLamp (some (codeOfLamp (lampReadback s.act.red))))
    | 20 => some (s.act.spare.report (fun _ => 0) (some (codeOfLamp spareReadback)))
    | _ => none

/-- R8, R142: the query clears the flag of a VALID channel, and of every corner mapped to it. -/
def clearOut (c : Chan) (s : State) : State :=
  if (s.chans.get c).st = some .valid then
    allCorners.foldl (fun s k => if Chan.h (s.map.get k).height = c then s.setCorner k { s.corner k with wasOut := false } else s)
      { s with chans := s.chans.set c { s.chans.get c with wasOut := false } }
  else s

/-- R183, R199: the clear-cause option. -/
def clearCause (wanted : Bool) (s : State) : State := if wanted then { s with resetCause := none, resetCount := 0 } else s

/-- R199. -/
def diagnosticQuery (l : Link) (q : Request) (s : State) : State :=
  let n := q.byte 2
  let clear := bitOf (q.byte 3) 0
  match chanOfNumber n with
  | some c => answer l { q.reply .done with tail := .channel (s.chans.get c) } (clearCause clear (clearOut c s))
  | none =>
    match (if n ≤ 31 then none else s.actReport (n - 31)) with
    | some r => answer l { q.reply .done with tail := .actuator r } (clearCause clear s)
    | none => refuse l q .badField s

/-- DIAGNOSTIC_QUERY (R199). -/
def execDiagnosticQuery (l : Link) (s : State) : Host.Outcome State Fault Refusal :=
  whenInService s (serve l (Request.is reqDiagnostic) (fromTool l (diagnosticQuery l)))

end Sys2Proof.Machine
end

