-- ==== Sys2Proof/Machine/Supply.lean ====
section
/-! DEFINITION. The supply and the resets (chapter 10): the restore timer, the dip monitor, the loss of the logic supply,
the COMMANDED reset and the leaving of reset. -/
namespace Sys2Proof.Machine

/-- R176: SUPPLY_LOW ends at the restore timer's expiry; nothing moves until the next periods (R122, R135). -/
def supplyEnds (s : State) : State := rrSignal { s with sam := { s.sam with supplyLow := false, restoreTimer := none } }

/-- RESTORE_TIMER_EXPIRY (R176). -/
def execRestoreTimerExpiry (s : State) : Host.Outcome State Fault Refusal :=
  whenInService s fun s => atExpiry s.sam.restoreTimer s fun _ t => supplyEnds t

/-- SUPPLY_DIP (R182): the supply falls below 9.0 V, whatever the part is doing. -/
def execSupplyDip (s : State) : Host.Outcome State Fault Refusal :=
  .next (holdInReset { s with supply := { s.supply with test := none, below9 := true } })

/-- LOGIC_STATE_LOSS (R183): the supply falls below 5.0 V or is lost. -/
def execLogicStateLoss (s : State) : Host.Outcome State Fault Refusal :=
  .next (holdInReset { s with supply := { s.supply with test := none, below5 := true, below9 := true } })

/-- SUPPLY_RISE (R182): the 20 ms start again at each rise to 9.5 V. A sag below 9.5 V that does not reach 9.0 V has stopped
them before (Clock). -/
def execSupplyRise (s : State) : Host.Outcome State Fault Refusal :=
  .next (if s.service = .held then { s with supply.test := some (s.now + 20) } else s)

/-- R184: the COMMANDED reset begins when the reply has been sent, else 100 ms after acceptance. -/
def beginCommanded (r : RestartRec) (supplyGood : Bool) (s : State) : State :=
  let t := if r.replySent then s else s.reach r.due
  holdInReset { t with supply := { t.supply with test := if supplyGood then some t.now else none, commanded := true } }

/-- COMMANDED_RESET (R184). -/
def execCommandedReset (supplyGood : Bool) (s : State) : Host.Outcome State Fault Refusal :=
  whenInService s fun s =>
    match s.restart with
    | none => s
    | some r => beginCommanded r supplyGood s

/-- R183: the cause of a reset, by the first case that applies. -/
def SupplyRec.cause (r : SupplyRec) : ResetCause := if r.below5 then .powerOn else if r.below9 then .supplyDip else .commanded

/-- R185 step 1: the stored configuration is in force, and the reset cause is recorded. -/
def comeOut (s : State) : State :=
  { s.volatileReset with
    cfg := s.store.current
    map := s.store.current.cornerMap
    resetCause := some s.supply.cause
    resetCount := satSucc 255 s.resetCount
    supply := { test := none, below5 := false, below9 := false, commanded := false }
    service := .publish }

/-- LEAVE_RESET (R185): steps 1 and 2. -/
def execLeaveReset (s : State) : Host.Outcome State Fault Refusal :=
  .next (if s.service = .held then atExpiry s.supply.test s fun _ t => startUpPublish (comeOut t) else s)

end Sys2Proof.Machine
end

