-- ==== Sys2Proof/Machine/Dispatch.lean ====
section
/-! DEFINITION. The meaning of every command: one arm for each constructor of Instr, in the table's order. -/
namespace Sys2Proof.Machine

/-- A command's effect on everything but the queue of waiting commands. -/
def exec (i : Instr) (s : State) : Host.Outcome State Fault Refusal :=
  match i with
  | .measurementSample raw => Sys2Proof.Machine.execMeasurementSample raw s
  | .motionFrame => Sys2Proof.Machine.execMotionFrame s
  | .staleExpiry => Sys2Proof.Machine.execStaleExpiry s
  | .demandLostExpiry => Sys2Proof.Machine.execDemandLostExpiry s
  | .coilCheck found => Sys2Proof.Machine.execCoilCheck found s
  | .brakePeriod => Sys2Proof.Machine.execBrakePeriod s
  | .establishmentTimeout => Sys2Proof.Machine.execEstablishmentTimeout s
  | .creepTimerExpiry => Sys2Proof.Machine.execCreepTimerExpiry s
  | .levellingPeriod => Sys2Proof.Machine.execLevellingPeriod s
  | .articulationPeriod => Sys2Proof.Machine.execArticulationPeriod s
  | .leaseExpiry row => Sys2Proof.Machine.execLeaseExpiry row s
  | .rollCallWindowExpiry => Sys2Proof.Machine.execRollCallWindowExpiry s
  | .reportGapExpiry row => Sys2Proof.Machine.execReportGapExpiry row s
  | .receiveFrame l f => Sys2Proof.Machine.execReceiveFrame l f s
  | .assert l => Sys2Proof.Machine.execAssert l s
  | .amend l => Sys2Proof.Machine.execAmend l s
  | .release l => Sys2Proof.Machine.execRelease l s
  | .releaseAll l => Sys2Proof.Machine.execReleaseAll l s
  | .lookup l => Sys2Proof.Machine.execLookup l s
  | .list l => Sys2Proof.Machine.execList l s
  | .listFrame l => Sys2Proof.Machine.execListFrame l s
  | .reportBegin l => Sys2Proof.Machine.execReportBegin l s
  | .reportEntry l => Sys2Proof.Machine.execReportEntry l s
  | .overrideOrphan l => Sys2Proof.Machine.execOverrideOrphan l s
  | .overrideZone l => Sys2Proof.Machine.execOverrideZone l s
  | .overrideRollCall l => Sys2Proof.Machine.execOverrideRollCall l s
  | .overrideAcknowledge l => Sys2Proof.Machine.execOverrideAcknowledge l s
  | .presence l => Sys2Proof.Machine.execPresence l s
  | .setRideLevel l => Sys2Proof.Machine.execSetRideLevel l s
  | .configWrite l => Sys2Proof.Machine.execConfigWrite l s
  | .configDiscard l => Sys2Proof.Machine.execConfigDiscard l s
  | .configCommit l => Sys2Proof.Machine.execConfigCommit l s
  | .bankWriteComplete => Sys2Proof.Machine.execBankWriteComplete s
  | .restart l => Sys2Proof.Machine.execRestart l s
  | .commandedReset supplyGood => Sys2Proof.Machine.execCommandedReset supplyGood s
  | .diagnosticQuery l => Sys2Proof.Machine.execDiagnosticQuery l s
  | .restraintRecompute => Sys2Proof.Machine.execRestraintRecompute s
  | .restraintRepeat => Sys2Proof.Machine.execRestraintRepeat s
  | .holdFaultTimerExpiry => Sys2Proof.Machine.execHoldFaultTimerExpiry s
  | .holdRequestedChange => Sys2Proof.Machine.execHoldRequestedChange s
  | .zoneRestraintUpdate z => Sys2Proof.Machine.execZoneRestraintUpdate z s
  | .levelFreezeChange => Sys2Proof.Machine.execLevelFreezeChange s
  | .loweringTimerExpiry z => Sys2Proof.Machine.execLoweringTimerExpiry z s
  | .risingTimerExpiry z => Sys2Proof.Machine.execRisingTimerExpiry z s
  | .restoreTimerExpiry => Sys2Proof.Machine.execRestoreTimerExpiry s
  | .supplyDip => Sys2Proof.Machine.execSupplyDip s
  | .leaveReset => Sys2Proof.Machine.execLeaveReset s
  | .frameTransmitted l => Sys2Proof.Machine.execFrameTransmitted l s
  | .statusPageTimer => Sys2Proof.Machine.execStatusPageTimer s
  | .transmitError l => Sys2Proof.Machine.execTransmitError l s
  | .receiveError l => Sys2Proof.Machine.execReceiveError l s
  | .busOffRecovery l => Sys2Proof.Machine.execBusOffRecovery l s
  | .supplyRise => Sys2Proof.Machine.execSupplyRise s
  | .logicStateLoss => Sys2Proof.Machine.execLogicStateLoss s
  | .tagCentrePublication => Sys2Proof.Machine.execTagCentrePublication s

end Sys2Proof.Machine
end

