-- ==== Sys2Proof/Safety.lean ====
section
/-! DEFINITION. The terms claims are stated in: which parts of the state a command may change, and the conditions the
manual states of the machine at all times. -/
namespace Sys2Proof.Safety
open Sys2Proof.Machine

/-! ## Frames -/

/-- The parts of State. The two links are one part; so are the reset cause and its number. -/
inductive Part where
  | now | draws | service | supply | restart | resetCause | cfg | store | map | periods | chans | motion | act | pt | it
  | rr | shc | bdu | lu | au | sam | pageTimer | links | pending
deriving DecidableEq, Repr

/-- A part is the same in two states. -/
def Part.same (s t : State) : Part → Prop
  | .now => t.now = s.now
  | .draws => t.draws = s.draws
  | .service => t.service = s.service
  | .supply => t.supply = s.supply
  | .restart => t.restart = s.restart
  | .resetCause => t.resetCause = s.resetCause ∧ t.resetCount = s.resetCount
  | .cfg => t.cfg = s.cfg
  | .store => t.store = s.store
  | .map => t.map = s.map
  | .periods => t.periods = s.periods
  | .chans => t.chans = s.chans
  | .motion => t.motion = s.motion
  | .act => t.act = s.act
  | .pt => t.pt = s.pt
  | .it => t.it = s.it
  | .rr => t.rr = s.rr
  | .shc => t.shc = s.shc
  | .bdu => t.bdu = s.bdu
  | .lu => t.lu = s.lu
  | .au => t.au = s.au
  | .sam => t.sam = s.sam
  | .pageTimer => t.pageTimer = s.pageTimer
  | .links => t.chassis = s.chassis ∧ t.body = s.body
  | .pending => t.pending = s.pending

/-- Every part outside a list is the same in two states. -/
def SameOutside (ps : List Part) (s t : State) : Prop := ∀ p : Part, p ∉ ps → Part.same s t p

/-- What a reset clears, with the records of the reset itself. -/
def resetParts : List Part :=
  [.service, .supply, .restart, .store, .periods, .chans, .motion, .act, .pt, .it, .rr, .shc, .bdu, .lu, .au, .sam,
    .pageTimer, .links]

/-- The parts a command may change (95_what_each_step_holds): every other part stays as it was. -/
def footprint : Instr → List Part
  | .measurementSample _ =>
    [.now, .draws, .service, .periods, .chans, .map, .sam, .lu, .act, .au, .it, .shc, .rr, .pt, .links]
  | .motionFrame => [.draws, .motion, .shc, .rr, .it, .lu, .act, .au, .pt, .links]
  | .staleExpiry => [.now, .draws, .motion, .shc, .rr, .it, .lu, .act, .au, .links]
  | .demandLostExpiry => [.now, .motion, .act, .rr]
  | .coilCheck _ => [.now, .draws, .periods, .act, .lu, .au, .it, .rr, .links]
  | .brakePeriod => [.now, .periods, .shc, .rr, .it, .links, .bdu, .act]
  | .establishmentTimeout => [.now, .shc, .rr, .it, .links]
  | .creepTimerExpiry => [.now, .shc, .rr]
  | .levellingPeriod => [.now, .draws, .periods, .lu, .act, .au, .it, .rr, .links]
  | .articulationPeriod => [.now, .periods, .au, .rr, .act]
  | .leaseExpiry _ => [.now, .pt, .it, .rr, .links]
  | .rollCallWindowExpiry => [.now, .it, .rr, .links]
  | .reportGapExpiry _ => [.now, .pt, .links]
  | .receiveFrame _ _ => [.links]
  | .assert _ => [.pt, .it, .rr, .links]
  | .amend _ => [.pt, .it, .rr, .links]
  | .release _ => [.pt, .it, .rr, .links]
  | .releaseAll _ => [.pt, .it, .rr, .links]
  | .lookup _ => [.pt, .links]
  | .list _ => [.pt, .links]
  | .listFrame _ => [.links]
  | .reportBegin _ => [.pt, .it, .rr, .links]
  | .reportEntry _ => [.pt, .it, .rr, .links]
  | .overrideOrphan _ => [.pt, .it, .rr, .links]
  | .overrideZone _ => [.pt, .lu, .rr, .links]
  | .overrideRollCall _ => [.pt, .it, .rr, .links]
  | .overrideAcknowledge _ => [.pt, .rr, .act, .links]
  | .presence _ => [.pt, .links]
  | .setRideLevel _ => [.draws, .pt, .lu, .act, .au, .it, .rr, .links]
  | .configWrite _ => [.pt, .store, .links]
  | .configDiscard _ => [.pt, .store, .links]
  | .configCommit _ => [.pt, .cfg, .store, .chans, .rr, .links]
  | .bankWriteComplete => [.store]
  | .restart _ => [.pt, .restart, .links]
  | .commandedReset _ => .now :: resetParts
  | .diagnosticQuery _ => [.pt, .chans, .lu, .resetCause, .links]
  | .restraintRecompute => [.draws, .rr, .act, .links, .pageTimer, .service]
  | .restraintRepeat => [.now, .rr, .links]
  | .holdFaultTimerExpiry => [.now, .rr, .act, .links]
  | .holdRequestedChange => [.rr, .shc, .it, .links]
  | .zoneRestraintUpdate _ => [.rr, .lu, .act, .au, .it, .links]
  | .levelFreezeChange => [.draws, .rr, .lu, .act, .au, .it, .links]
  | .loweringTimerExpiry _ => [.now, .lu, .rr]
  | .risingTimerExpiry _ => [.now, .lu, .rr]
  | .restoreTimerExpiry => [.now, .sam, .rr]
  | .supplyDip => resetParts
  | .leaveReset => [.now, .cfg, .map, .resetCause] ++ resetParts
  | .frameTransmitted _ => [.restart, .links]
  | .statusPageTimer => [.now, .pageTimer, .links]
  | .transmitError _ => [.links]
  | .receiveError _ => [.links]
  | .busOffRecovery _ => [.links]
  | .supplyRise => [.supply]
  | .logicStateLoss => resetParts
  | .tagCentrePublication => [.rr, .au]

/-! ## Requests taken -/

/-- R23, R48: the part is in service and takes a request from link `l`: `q` is the oldest that waits there, `rest` is
what the buffers then hold, and the sender is the participant of row `n`. -/
abbrev Taken (s : State) (l : Link) (q : Request) (rest : List RxFrame) (n : Nat) (row : PtCfg) : Prop :=
  s.service = .inService ∧ s.canTake l = true ∧ s.oldestRequest l = some (q, rest) ∧ s.participant l q.source = some (n, row)

/-- R23, R24: of the participant table only row `n` changes: its participant is PRESENT with a fresh deadline. -/
abbrev HeardOnly (s t : State) (n : Nat) (row : PtCfg) : Prop :=
  t.pt = setNth s.pt n fun v => { v with presence := .present, deadline := some (s.now + row.lease) }

/-- A link's record with notices placed on it, oldest first (R191). -/
def placed (ns : List Notice) (l : LinkRec) : LinkRec := ns.foldl (fun l n => l.placeNotice n) l

/-- R36, R49: the request's buffer is free, the notices are placed on both links, the one reply is placed on the link the
request came on, and the free slots are filled (R190). A reply without a summary carries no key (log entry 43). -/
abbrev Answered (s t : State) (l : Link) (rest : List RxFrame) (ns : List Notice) (r : Reply) : Prop :=
  t.link l = ((placed ns { s.link l with rx := rest }).placeReply r).fill ∧
    ∀ m : Link, m ≠ l → t.link m = (placed ns (s.link m)).fill

/-- A request is refused: its sender is heard and the reply names the reason; nothing else changes. -/
abbrev RefusedFor (s t : State) (l : Link) (q : Request) (rest : List RxFrame) (n : Nat) (row : PtCfg)
    (why : RefusalReason) : Prop :=
  HeardOnly s t n row ∧ Answered s t l rest [] (q.reply (.refused why)) ∧ SameOutside [.pt, .links] s t

/-- R32: the first grant condition of an entry that fails, with the figures of `t`. -/
abbrev waitsFor (t : State) (e : Entry) : Option Reason :=
  if t.it.rollCall ≠ .closed then some .rollCall
  else if e.kind = .hold then none
  else if t.motion.speedState ≠ .standstill then some .notStandstill
  else if t.shc.state ≠ .established then some .holdNotEstablished
  else if e.kind = .kneel ∧ t.sam.riseReserve = false then some .airReserve
  else if e.kind = .kneel ∧ ((e.zone ≠ .rear ∧ t.lu.zoneFailed .front = true) ∨ (e.zone ≠ .front ∧ t.lu.zoneFailed .rear = true)) then
    some .zoneFailed
  else none

/-- R33: an entry after an examination with the figures of `t`. -/
abbrev examinedIn (t : State) (e : Entry) : Entry :=
  if e.state = .active then e
  else { e with state := match waitsFor t e with
      | none => .active
      | some r => .pending r }

/-- R33: the notices of an examination of the entries of `s` with the figures of `t`, in table order. -/
abbrev noticesIn (s t : State) : List Notice :=
  (s.it.entries.filter fun e => examinedIn t e != e).map fun e => .entryState (s.summary (examinedIn t e) false)
    (if (examinedIn t e).state = .active then { NoticeCauses.none with grant := true }
    else { NoticeCauses.none with pendingReason := true })

/-- The requests of R194 with the command that serves each, for a link. A command of OVERRIDE serves its own form. -/
def serving (l : Link) : List (Instr × (Request → Bool)) :=
  [ (.assert l, Request.is reqAssert), (.amend l, Request.is reqAmend), (.release l, Request.is reqRelease),
    (.releaseAll l, Request.is reqReleaseAll), (.lookup l, Request.is reqLookup), (.list l, Request.is reqList),
    (.reportBegin l, Request.is reqReportBegin), (.reportEntry l, Request.is reqReportEntry),
    (.overrideOrphan l, isOverride 1), (.overrideZone l, isOverride 2), (.overrideRollCall l, isOverride 3),
    (.overrideAcknowledge l, isOverride 4), (.presence l, Request.is reqPresence),
    (.setRideLevel l, Request.is reqSetRideLevel), (.configWrite l, Request.is reqConfigWrite),
    (.configDiscard l, Request.is reqConfigDiscard), (.configCommit l, Request.is reqConfigCommit),
    (.restart l, Request.is reqRestart), (.diagnosticQuery l, Request.is reqDiagnostic) ]

/-- R190: free slots filled in order of index from items in their order. -/
def filledFrom : List Slot → List TxItem → List Slot
  | [], _ => []
  | x :: slots, [] => x :: slots
  | .free :: slots, i :: items => .waiting i :: filledFrom slots items
  | .waiting x :: slots, i :: items => .waiting x :: filledFrom slots (i :: items)
  | .sending x :: slots, i :: items => .sending x :: filledFrom slots (i :: items)

/-- The transmit slots of a link in order of index (R190). -/
abbrev slotsOf (l : LinkRec) : List Slot := [l.slot1, l.slot2, l.slot3]

/-! ## Conditions at all times -/

/-- R19: TS is overridden exactly while the lock holds. -/
def LockOverrides (s : State) : Prop := s.act.ts.overridden = lockHolds s.act.tl

/-- R169, R168: the target and the commanded angle of the tag, and the command TS holds, lie within ±12.0°. -/
def TagWithinRange (s : State) : Prop :=
  -120 ≤ s.au.target ∧ s.au.target ≤ 120 ∧ -120 ≤ s.au.commanded ∧ s.au.commanded ≤ 120 ∧
    ∀ x, s.act.ts.command = some x → -120 ≤ x ∧ x ≤ 120

/-- R134: no corner valve is in FILL while HOLD_OK or FILL_OK is false, while the corner is FROZEN or FAILED, or while
SUPPLY_LOW holds. -/
def NoForbiddenFill (s : State) : Prop :=
  ∀ k : Corner, (s.corner k).valve = .fill →
    s.sam.holdOk = true ∧ s.sam.fillOk = true ∧ s.sam.supplyLow = false ∧ (s.corner k).mode ≠ .frozen ∧
      (s.corner k).mode ≠ .failed

/-- R29, R42: no two entries share a key, and recovery entries stand only after the close. -/
def KeysDistinct (s : State) : Prop :=
  (s.it.entries.Pairwise fun a b => a.owner ≠ b.owner ∨ a.tag ≠ b.tag) ∧
    (s.it.rollCall ≠ .closed → ∀ e ∈ s.it.entries, e.tag ≠ 7)

/-- R41: before the close no entry is granted, and every entry waits with reason ROLL_CALL. -/
def NoGrantBeforeClose (s : State) : Prop :=
  s.it.rollCall ≠ .closed → ∀ e ∈ s.it.entries, e.state = .pending .rollCall

/-- R92, R97, R98, R101: the stop hold's timers and flags belong to their states, and the mark of a transition made at a
change to STANDSTILL to that speed state. -/
def HoldTimersFit (s : State) : Prop :=
  (s.shc.establishTimer.isSome = true ↔ s.shc.state = .applying) ∧
    (s.shc.creep = true → s.shc.state = .established) ∧ (s.shc.ceiling = true → s.shc.creep = true) ∧
    (s.shc.creepTimer.isSome = true → s.shc.creep = true ∧ s.shc.ceiling = false) ∧
    (s.rr.holdFaultTimer.isSome = true ∨ s.rr.holdFaultLong = true → s.shc.state = .holdFault) ∧
    (s.shc.standstillDue = true → s.shc.state = .arming) ∧
    (s.shc.standstillTaken = true → s.motion.speedState = .standstill)

/-- 8.1, R149, R153, R155: a zone's timer and flags belong to its state. -/
def ZoneFits (r : ZoneRec) : Prop :=
  (r.timer.isSome = true ↔ r.state = .lowering ∨ r.state = .rising) ∧ (r.override = true → r.state = .stuckLow) ∧
    (r.incomplete = true → r.state = .down) ∧
    (r.state = .up ∨ r.state = .rising ∨ r.state = .stuckLow → r.target = 0)

def ZonesFit (s : State) : Prop := ZoneFits s.lu.front ∧ ZoneFits s.lu.rear

/-- R24: a lease deadline stands exactly while the participant is PRESENT. -/
def LeasesFit (s : State) : Prop := ∀ v ∈ s.pt, v.deadline.isSome = true ↔ v.presence = .present

/-- R13, R14: the speed state follows from the freshness and the speed, and the freshness timer runs in FRESH and STALE. -/
def SpeedFollows (s : State) : Prop :=
  s.motion.speedState = speedStateOf s.motion.freshness s.motion.speed ∧
    (s.motion.timer.isSome = true ↔ s.motion.freshness = .fresh ∨ s.motion.freshness = .stale)

/-- R176: the restore timer runs only while SUPPLY_LOW is yes. -/
def SupplyFits (s : State) : Prop := s.sam.restoreTimer.isSome = true → s.sam.supplyLow = true

/-- R40: while the roll call has still to open no motion frame has been accepted, and a part in service has sampled every
fitted channel. -/
def AwaitingFits (s : State) : Prop :=
  s.it.rollCall = .awaiting → s.motion.speedState = .unknown ∧ (s.service = .inService → s.allSampled = true)

/-- R30: the entries with the places owed fill at most the 24 places of the table. -/
def PlacesTotal (s : State) : Prop := s.it.entries.length + s.placesOwed ≤ 24

/-- R30: those of owners other than the driver console fill at most 22. -/
def PlacesOthers (s : State) : Prop := s.otherEntries + s.placesOwedOthers ≤ 22

/-- R25: a participant that owns an entry is in use. -/
def OwnersListed (s : State) : Prop := ∀ e ∈ s.it.entries, (s.cfg.row e.owner).any PtCfg.inUse = true

/-- R85: the RED latch is set while a setting condition is in force, the inputs being those the resolver has taken. -/
def RedLatchHolds (s : State) : Prop := s.rr.redSet.any = true → s.rr.redLatch = true

/-- R79: in the inputs the resolver has taken, the door-at-speed flag is set while the bus is MOVING with a door open, and
clear at STANDSTILL or with none open. -/
def DoorFlagFits (s : State) : Prop :=
  (s.rr.view.speed = .moving ∧ s.rr.view.doorOpen = true → s.rr.doorAtSpeed = true) ∧
    (s.rr.view.speed = .standstill ∨ s.rr.view.doorOpen = false → s.rr.doorAtSpeed = false)

/-- R74: the resolver's inputs of the moment are those it has taken or those it has still to take, and no event stands
outside a moment it has to take. -/
def InputsSignalled (s : State) : Prop := s.rr.noted = [] ∧ s.rr.latest = s.rrInputs

/-- The resolver has a moment to take, unless nothing of it has happened. -/
abbrev dueWith (moments : List (List RrIn)) (moment : List RrIn) : List (List RrIn) :=
  if moment = [] then moments else moments ++ [moment]

/-- What one event gives the resolver, said of its memory before and of the state after: it has the inputs of the moment to
take if they differ from those it was given last, and nothing else of its memory changes. -/
abbrev SignalledOnce (before : RrRec) (t : State) : Prop :=
  t.rr = { before with
    noted := []
    due := dueWith before.due (before.noted ++ if t.rrInputs = before.latest then [] else [t.rrInputs]) }

/-- The signal to the resolver after one event, said of the states before and after it. -/
abbrev Signalled (s t : State) : Prop := SignalledOnce s.rr t

/-- What several events at one moment give the resolver: at most one more moment, whose last inputs are those that stand, and
nothing else of its memory changes. -/
abbrev SignalledInTurn (before : RrRec) (t : State) : Prop :=
  t.rr.latest = t.rrInputs ∧
    ∃ moment : List RrIn, t.rr = { before with noted := [], due := dueWith before.due (before.noted ++ moment) }

/-- 4.1: the fields of a record that follow from inputs, each as its rule gives it: R75 to R78 and R80 to R82. The field
of door at speed and RED, which keep memory (R79, R85), are apart, and so is AMBER (R84). -/
abbrev FieldsFollow (v : RrIn) (r : Restraint) : Prop :=
  let stays := fun (z : RrZone) => match z.state with
    | .up => false
    | .stuckLow => !z.override
    | .lowering => true
    | .down => true
    | .rising => true
  let overridden := fun (z : RrZone) => z.state == .stuckLow && z.override
  let held := v.hold == .applying || v.hold == .established || v.hold == .holdFault || v.hold == .releaseWait
  let has := fun (k : Kind) => v.entries.any fun e => e.kind == k
  let depth := fun (z : EntryZone) (d : Nat) =>
    (∀ e ∈ v.entries, e.active = true → e.kind = .kneel → (e.zone = z ∨ e.zone = .whole) → e.depth.getD 0 ≤ d) ∧
      (d = 0 ∨ ∃ e ∈ v.entries, e.active = true ∧ e.kind = .kneel ∧ (e.zone = z ∨ e.zone = .whole) ∧ e.depth = some d)
  r.holdRequested = (v.entries.any (fun e => e.effects.stopBrake) || stays v.front || stays v.rear) ∧
  r.driveInhibit = (v.entries.any (fun e => e.active && e.effects.driveInhibit) || stays v.front || stays v.rear ||
    v.rollCall != .closed || held) ∧
  r.keepLowFront = v.entries.any (fun e => e.active && e.effects.keepLow && (e.zone == .front || e.zone == .whole)) ∧
  r.keepLowRear = v.entries.any (fun e => e.active && e.effects.keepLow && (e.zone == .rear || e.zone == .whole)) ∧
  depth .front r.depthFront ∧ depth .rear r.depthRear ∧
  r.levelFreeze = v.entries.any (fun e => e.active && e.effects.levelFreeze) ∧
  r.tagCentre = v.entries.any (fun e => e.active && e.effects.tagCentre) ∧
  r.torque = v.torque ∧
  r.speedLimit = (if overridden v.front = true ∨ overridden v.rear = true then some 100
    else if v.chans.j = .failed then some 300 else if v.tagFault = true then some 400 else none) ∧
  r.kinds = { door := has .door, ramp := has .ramp, kneel := has .kneel, hold := has .hold, service := has .service } ∧
  r.conds = { rollCall := v.rollCall != .closed, kneelZone := stays v.front || stays v.rear, stopHold := held
              zoneOverride := overridden v.front || overridden v.rear, jointFailed := v.chans.j == .failed
              tagFault := v.tagFault, foldLimit := v.foldLimit }

/-- R84: an AMBER condition holds of the inputs. -/
abbrev AmberHolds (v : RrIn) : Prop :=
  (∃ c : Chan, v.chans.get c ≠ .valid) ∨ (∃ a : Axle, v.modFailed.get a = true) ∨ (∃ k : Corner, v.valveFailed.get k = true) ∨
    v.dpFailed = true ∨ v.dnFailed = true ∨ v.tlFailed = true ∨ (∃ a : Axle, v.driven.get a = false) ∨
    v.supplyLow = true ∨ v.holdOk = false ∨ v.fillOk = false ∨ v.riseReserve = false ∨ v.creep = true ∨
    v.front.incomplete = true ∨ v.rear.incomplete = true ∨ v.front.state = .stuckLow ∨ v.rear.state = .stuckLow ∨
    ∃ e ∈ v.entries, e.orphaned = true

/-- R79: the door-at-speed flag after an event of the resolver, from the inputs it has taken and the flag before. -/
abbrev doorAfter (v : RrIn) (was : Bool) : Bool :=
  let isOpen := v.entries.any fun e => e.opening == some .opening || e.opening == some .opened
  if v.speed = .moving ∧ isOpen = true then true else if v.speed = .standstill ∨ isOpen = false then false else was

/-- R74, R76, R84, R85: the line and the telltales hold the commands of the record last published. -/
def LineFollowsRecord (s : State) : Prop :=
  ∀ r, s.rr.published = some r →
    s.act.line.command = some (if r.driveInhibit then .asserted else .clear) ∧
      s.act.amber.command = some (if r.amber then .on else .off) ∧ s.act.red.command = some (if r.red then .on else .off)

/-- R188, R189, R191: a link's buffers, its reply queue and its notice list hold at most their places. -/
def LinkRec.Bounded (l : LinkRec) : Prop := l.rx.length ≤ 2 ∧ l.replies.length ≤ 8 ∧ l.notices.length ≤ 32

def LinksBounded (s : State) : Prop := LinkRec.Bounded s.chassis ∧ LinkRec.Bounded s.body

end Sys2Proof.Safety
end

