-- ==== Sys2Proof/Certificates/Slice0/Obligations.lean ====
section
/-! DEFINITION. What is to be proved of the model. Each statement names the section of the manual it rests on in
OBLIGATIONS.json; a statement of what a command does concludes that exec answers the next state it describes. -/
section Statements
open Sys2Proof Sys2Proof.Machine Sys2Proof.Safety

/-- When commands wait, a step is the front command executed on the state whose queue holds the rest, and taking it
from the queue changes nothing else. -/
def Obligations.StepRunsFrontCommand : Prop :=
  ∀ (s : State) (c : Instr) (q : List Instr), s.pending = c :: q →
    step s = exec c (s.withPending q) ∧ (s.withPending q).pending = q ∧ SameOutside [.pending] s (s.withPending q)

/-- Model choice (log entries 1, 6, 27 and 28): with an empty queue a step moves the clock on by 1 ms. Each link
controller of a part in service either stays as it is, or offers a waiting frame to its bus, or in BUS_OFF
counts further occurrences of 11 recessive bits, up to the 127th. While the part is held in reset, a 20 ms
supply test that is running may be interrupted by a sag below 9.5 V (log entry 28). Nothing else changes. -/
def Obligations.EmptyQueuePassesAMillisecond : Prop :=
  ∀ s : State, s.pending = [] →
    ∃ t, step s = .next t ∧ t.now = s.now + 1 ∧ SameOutside [.now, .supply, .links] s t ∧
      (t.supply = s.supply ∨ (s.service = .held ∧ s.supply.test.any (fun d => decide (s.now < d)) = true ∧
        t.supply = { s.supply with test := none })) ∧
      ∀ l : Link, t.link l = s.link l ∨ (s.service = .inService ∧ (t.link l = (s.link l).offer ∨
        ((s.link l).isOff = true ∧ ∃ n : Nat, n ≤ 127 ∧ ((s.link l).recessive ≤ 127 → (s.link l).recessive ≤ n) ∧
          t.link l = { s.link l with recessive := n })))

/-- For every command and every state, exec answers a next state in which every part of the state outside the
footprint of the command is as it was; no footprint holds the queue of waiting commands. That a command which
cannot arise in a state, such as the expiry of a stopped timer, leaves that state as it is and is not refused is
the model's choice (log entry 2). -/
def Obligations.EveryCommandKeepsItsFrame : Prop :=
  ∀ (c : Instr) (s : State), Part.pending ∉ footprint c ∧ ∃ t, exec c s = .next t ∧ SameOutside (footprint c) s t

/-- Right after reset every channel has no state, the motion record is AWAITING with speed state UNKNOWN, the table
is empty with roll call AWAITING and next number 1, the hold is OFF with all targets 0, both zones are UP, the
tag record is CENTRING with commanded angle 0, SUPPLY_LOW is no with the three comparators true, TS is
overridden, and both links are ERROR_ACTIVE and empty. The state right after reset meets each of the invariants
that the statements of preservation concern. That this state is the delivered part right after its first power-
on is log entry 30. The changes and inputs kept for those still to take them are the model's own lists (log
entry 7). -/
def Obligations.ResetValuesMeetEveryInvariant : Prop :=
  (∀ c : Chan, State.reset.chans.get c = .reset) ∧
    State.reset.motion.freshness = .awaiting ∧ State.reset.motion.speedState = .unknown ∧
    State.reset.it = { entries := [], nextSeq := 1, rollCall := .awaiting, window := none } ∧
    (∀ v ∈ State.reset.pt, v.presence = .absent ∧ v.deadline = none ∧ v.report = none ∧ v.reported = false) ∧
    State.reset.rr.published = none ∧ State.reset.rr.redLatch = false ∧
    State.reset.shc.state = .off ∧ (∀ a : Axle, State.reset.shc.target a = 0) ∧
    (∀ a : Axle, (State.reset.bdu.axles.get a).load = none ∧ (State.reset.act.m.get a).driven = false) ∧
    (∀ z : Zone, (State.reset.zone z).state = .up) ∧ (∀ k : Corner, (State.reset.corner k).mode = .ride) ∧
    State.reset.au.tag = .centring ∧ State.reset.au.commanded = 0 ∧ State.reset.act.ts.overridden = true ∧
    lineReadback State.reset.act.line = .asserted ∧
    State.reset.sam.supplyLow = false ∧ State.reset.sam.holdOk = true ∧ State.reset.sam.fillOk = true ∧
    State.reset.sam.riseReserve = true ∧
    (∀ l : Link, (State.reset.link l).state = .errorActive ∧ (State.reset.link l).rx = [] ∧
      (State.reset.link l).replies = [] ∧ (State.reset.link l).notices = []) ∧
    LockOverrides State.reset ∧ TagWithinRange State.reset ∧ NoForbiddenFill State.reset ∧ KeysDistinct
    State.reset ∧ NoGrantBeforeClose State.reset ∧ AwaitingFits State.reset ∧ PlacesTotal State.reset ∧
    PlacesOthers State.reset ∧ OwnersListed State.reset ∧ HoldTimersFit State.reset ∧ ZonesFit State.reset ∧
    LeasesFit State.reset ∧ SpeedFollows State.reset ∧ SupplyFits State.reset ∧ RedLatchHolds State.reset ∧
    DoorFlagFits State.reset ∧ InputsSignalled State.reset ∧ LineFollowsRecord State.reset ∧ LinksBounded
    State.reset

/-- SUPPLY_DIP, LOGIC_STATE_LOSS and, after an accepted RESTART, COMMANDED_RESET put the part in reset with every
volatile record at its reset value; the two banks, the mark of the current one and the commit count stay, a
write in flight ends, and the reset cause record stays. A dip and a loss note what the supply did and stop the
supply test; a commanded reset begins when its reply has been sent, else 100 ms after acceptance, and may be
left at once if the supply is good. That the bank into which a reset has cut a write short keeps its contents is
the model's choice (log entry 54). That an expiry moves the clock to its moment is the model's own (log entry
1). -/
def Obligations.ResetsClearVolatileRecords : Prop :=
  (∀ (s : State),
    ∃ t, exec .supplyDip s = .next t ∧
      (t.service = .held ∧ t.restart = none ∧ t.periods = .reset ∧ (∀ c : Chan, t.chans.get c = .reset) ∧ t.motion = .reset ∧
      t.act = .reset ∧ t.pt = List.replicate 16 .reset ∧ t.it = .reset ∧ t.rr = .reset ∧ t.shc = .reset ∧ t.bdu = .reset ∧
      t.lu = .reset ∧ t.au = .reset ∧ t.sam = .reset ∧ t.pageTimer = none ∧ (∀ l : Link, t.link l = .reset) ∧
      t.store.bank1 = s.store.bank1 ∧ t.store.bank2 = s.store.bank2 ∧ t.store.secondCurrent = s.store.secondCurrent ∧
      t.store.commits = s.store.commits ∧ t.store.writing = none ∧ t.store.staging = [] ∧ t.store.refusal = none ∧
      t.supply = { s.supply with test := none, below9 := true } ∧
      SameOutside resetParts s t)) ∧
  (∀ (s : State),
    ∃ t, exec .logicStateLoss s = .next t ∧
      (t.service = .held ∧ t.restart = none ∧ t.periods = .reset ∧ (∀ c : Chan, t.chans.get c = .reset) ∧ t.motion = .reset ∧
      t.act = .reset ∧ t.pt = List.replicate 16 .reset ∧ t.it = .reset ∧ t.rr = .reset ∧ t.shc = .reset ∧ t.bdu = .reset ∧
      t.lu = .reset ∧ t.au = .reset ∧ t.sam = .reset ∧ t.pageTimer = none ∧ (∀ l : Link, t.link l = .reset) ∧
      t.store.bank1 = s.store.bank1 ∧ t.store.bank2 = s.store.bank2 ∧ t.store.secondCurrent = s.store.secondCurrent ∧
      t.store.commits = s.store.commits ∧ t.store.writing = none ∧ t.store.staging = [] ∧ t.store.refusal = none ∧
      t.supply = { s.supply with test := none, below5 := true, below9 := true } ∧
      SameOutside resetParts s t)) ∧
  (∀ (s : State) (r : RestartRec) (good : Bool),
      s.service = .inService →
      s.restart = some r →
    ∃ t, exec (.commandedReset good) s = .next t ∧
      (t.service = .held ∧ t.restart = none ∧ t.periods = .reset ∧ (∀ c : Chan, t.chans.get c = .reset) ∧ t.motion = .reset ∧
      t.act = .reset ∧ t.pt = List.replicate 16 .reset ∧ t.it = .reset ∧ t.rr = .reset ∧ t.shc = .reset ∧ t.bdu = .reset ∧
      t.lu = .reset ∧ t.au = .reset ∧ t.sam = .reset ∧ t.pageTimer = none ∧ (∀ l : Link, t.link l = .reset) ∧
      t.store.bank1 = s.store.bank1 ∧ t.store.bank2 = s.store.bank2 ∧ t.store.secondCurrent = s.store.secondCurrent ∧
      t.store.commits = s.store.commits ∧ t.store.writing = none ∧ t.store.staging = [] ∧ t.store.refusal = none ∧
      t.now = (if r.replySent then s.now else max s.now r.due) ∧
      t.supply = { s.supply with test := if good then some t.now else none, commanded := true } ∧
      SameOutside (.now :: resetParts) s t))

/-- A rise of the supply of a part held in reset starts the 20 ms test. At its end the part leaves reset with the
configuration of the current bank, the cause by the first case of POWER_ON, SUPPLY_DIP and COMMANDED that
applies, and the reset count one higher up to 255. The first publication carries change count 0, inhibits drive
and asks for no hold; each link holds its restraint notice and status page 0, and the page timer runs. A test
that is not running, as after a fall of the supply, leaves the part held. That each SUPPLY_RISE while the part
is held starts the 20 ms anew is the model's choice (log entry 28), and so is the slot the restraint notice
takes: R190 does not say which of the free ones, and the model gives it slot 1 and page 0 slot 2 (log entry 37).
That an expiry moves the clock to its moment is the model's own (log entry 1). -/
def Obligations.PartComesOutOfReset : Prop :=
  (∀ (s : State),
      s.service = .held →
    ∃ t, exec .supplyRise s = .next t ∧
      (t = { s with supply := { s.supply with test := some (s.now + 20) } })) ∧
  (∀ (s : State) (d : Nat),
      s.service = .held →
      s.supply.test = some d →
    ∃ t, exec .leaveReset s = .next t ∧
      (t.now = max s.now d ∧ t.service = .firstSample ∧
      t.resetCause = some (if s.supply.below5 then .powerOn else if s.supply.below9 then .supplyDip else .commanded) ∧
      t.resetCount = (if s.resetCount < 255 then s.resetCount + 1 else 255) ∧
      t.cfg = (if s.store.secondCurrent then s.store.bank2 else s.store.bank1) ∧ t.map = t.cfg.cornerMap ∧
      t.supply = { test := none, below5 := false, below9 := false, commanded := false } ∧
      t.it = .reset ∧ t.shc = .reset ∧ t.motion = .reset ∧ t.rr.count = 0 ∧ t.pageTimer = some (t.now + 50) ∧
      t.act.line.command = some .asserted ∧
      match t.rr.published with
      | none => False
      | some r => r.driveInhibit = true ∧ r.holdRequested = false ∧ r.speedLimit = none ∧ r.red = false ∧
          ∀ l : Link, (t.link l).slot1 = .waiting (.restraint r 0) ∧ (t.link l).slot2 = .waiting (.status 0) ∧
            (t.link l).nextPage = 1)) ∧
  (∀ (s : State),
      s.service = .held →
      s.supply.test = none →
    ∃ t, exec .leaveReset s = .next t ∧
      (t = s))

/-- From every state in which the target, the commanded angle and the command of TS lie within 120 tenths of a
degree and TS is overridden exactly while TL holds, every step leads to such a state. -/
def Obligations.TagStaysInRangeAndLockOverrides : Prop :=
  ∀ s t : State, LockOverrides s → TagWithinRange s → step s = .next t → LockOverrides t ∧ TagWithinRange t

/-- From every state in which no corner fills while HOLD_OK or FILL_OK is false, SUPPLY_LOW holds, or the corner is
FROZEN or FAILED, every step leads to such a state. -/
def Obligations.NoValveFillsWhenForbidden : Prop :=
  ∀ s t : State, NoForbiddenFill s → step s = .next t → NoForbiddenFill t

/-- From every state in which no two entries share owner and tag, recovery entries stand only after the close, and
before the close every entry waits with reason ROLL_CALL, every step leads to such a state. From every state in
which, while the roll call awaits its opening, no frame has been accepted and a part in service has sampled
every fitted channel, and in which the entries with the places owed to the roll call are at most 24, every step
leads to such a state; and if those of owners other than the driver console are also at most 22, they stay so at
every step that leaves the configuration in force. They stay so at every step, a commit included, where every
owner of an entry has its row in use, and every step keeps that too; a role counts to the identity of a row (log
entry 24). -/
def Obligations.KeysStayDistinctAndNoGrantBeforeClose : Prop :=
  (∀ s t : State, KeysDistinct s → NoGrantBeforeClose s → step s = .next t → KeysDistinct t ∧ NoGrantBeforeClose t) ∧
    (∀ s t : State, AwaitingFits s → PlacesTotal s → step s = .next t → AwaitingFits t ∧ PlacesTotal t) ∧
    (∀ s t : State, AwaitingFits s → PlacesTotal s → PlacesOthers s → step s = .next t → t.cfg = s.cfg → PlacesOthers t) ∧
    (∀ s t : State, AwaitingFits s → PlacesTotal s → PlacesOthers s → OwnersListed s → step s = .next t →
      PlacesOthers t ∧ OwnersListed t)

/-- From every state in which the establishment timer runs exactly in APPLYING, creep is yes only in ESTABLISHED,
creep at ceiling only with creep, the creep timer only with creep below the ceiling, the hold-fault timer and
HOLD_FAULT_LONG only in HOLD_FAULT, a transition at standstill is due only in ARMING, the mark of one made at
standstill stands only at STANDSTILL and the restore timer runs only under SUPPLY_LOW, every step leads to such
a state. -/
def Obligations.HoldAndSupplyTimersFitTheirStates : Prop :=
  ∀ s t : State, HoldTimersFit s → SupplyFits s → step s = .next t → HoldTimersFit t ∧ SupplyFits t

/-- From every state in which a zone has a timer exactly in LOWERING and RISING, an override flag only in STUCK_LOW,
an incomplete flag only in DOWN, and target depth 0 in UP, RISING and STUCK_LOW, every step leads to such a
state. -/
def Obligations.ZoneRecordsFitTheirStates : Prop :=
  ∀ s t : State, ZonesFit s → step s = .next t → ZonesFit t

/-- From every state in which each link holds at most 2 received frames, 8 replies and 32 notices, every step leads
to such a state. -/
def Obligations.LinkQueuesStayBounded : Prop :=
  ∀ s t : State, LinksBounded s → step s = .next t → LinksBounded t

/-- From every state in which the speed state follows from freshness and speed, the freshness timer runs exactly in
FRESH and STALE, and a lease deadline stands exactly while its participant is PRESENT, every step leads to such
a state. -/
def Obligations.SpeedStateAndLeasesFollow : Prop :=
  ∀ s t : State, SpeedFollows s → LeasesFit s → step s = .next t → SpeedFollows t ∧ LeasesFit t

/-- From every state in which RED is latched while a setting condition is in force, the door-at-speed flag is yes
while MOVING with a door open and no at STANDSTILL or with none open, and the line and telltales hold the
commands of the published record, every step leads to such a state. The conditions are those of the inputs the
resolver has taken: flag and latch follow at the taking of an input (log entry 8). From every state in which the
inputs the resolver has been given last are those their owners hold, and no event stands outside a moment it has
to take, every step leads to such a state (log entry 7). The changes and inputs kept for those still to take them are the model's own lists (log entry 7). -/
def Obligations.RedLatchDoorFlagAndLineFollow : Prop :=
  (∀ s t : State, RedLatchHolds s → DoorFlagFits s → LineFollowsRecord s → step s = .next t → RedLatchHolds t ∧ DoorFlagFits t ∧ LineFollowsRecord t) ∧
    (∀ s t : State, InputsSignalled s → step s = .next t → InputsSignalled t)

/-- The rounded quotient times the divisor differs from the dividend by at most half the divisor, and by exactly
half only when the quotient is the one farther from zero; for figures that are never negative the natural-number
form gives the same quotient. -/
def Obligations.DivisionRoundsHalvesAwayFromZero : Prop :=
  (∀ (n : Int) (d : Nat), 0 < d → 2 * (n - rdiv n d * d).natAbs ≤ d ∧
      (2 * (n - rdiv n d * d).natAbs = d → n.natAbs < (rdiv n d * d).natAbs)) ∧
    (∀ n d : Nat, rdiv (n : Int) d = (rdivN n d : Int)) ∧ rdiv 232416 100 = 2324 ∧ rdiv (-71250) 1000 = -71

/-- Between two breakpoints the reading is the lower figure plus the rounded term; at a breakpoint it is that
breakpoint's figure; beyond the last it is the last figure. Stated for the damping and limit tables and for the
gain table, with their fixed breakpoint speeds and any figures. A CONFIG_COMMIT, which may change the tables in
force, changes no figure of the articulation unit and no command, and the next period reads the tables in force
at it: the damping and limit tables with a FRESH forward frame, and the gain table where it steers. -/
def Obligations.TableReadsByInterpolation : Prop :=
  (∀ (y0 y1 y2 y3 y4 y5 : Int) (v : Nat),
    let r := readTable (jointBreakpoints.zip [y0, y1, y2, y3, y4, y5]) v
    let mid := fun (a b : Nat) (x y : Int) => x + rdiv (((v : Int) - a) * (y - x)) (b - a)
    (v = 0 → r = y0) ∧ (v = 100 → r = y1) ∧ (v = 200 → r = y2) ∧ (v = 400 → r = y3) ∧ (v = 600 → r = y4) ∧
      (v < 100 → r = mid 0 100 y0 y1) ∧ (100 ≤ v → v < 200 → r = mid 100 200 y1 y2) ∧
      (200 ≤ v → v < 400 → r = mid 200 400 y2 y3) ∧ (400 ≤ v → v < 600 → r = mid 400 600 y3 y4) ∧
      (600 ≤ v → v < 800 → r = mid 600 800 y4 y5) ∧(800 ≤ v → r = y5)) ∧
  (∀ (y0 y1 y2 y3 : Int) (v : Nat),
    let r := readTable (gainBreakpoints.zip [y0, y1, y2, y3]) v
    let mid := fun (a b : Nat) (x y : Int) => x + rdiv (((v : Int) - a) * (y - x)) (b - a)
    (v = 0 → r = y0) ∧ (v = 150 → r = y1) ∧ (v = 300 → r = y2) ∧ (v < 150 → r = mid 0 150 y0 y1) ∧
      (150 ≤ v → v < 300 → r = mid 150 300 y1 y2) ∧ (300 ≤ v → v < 400 → r = mid 300 400 y2 y3) ∧ (400 ≤ v → r = y3)) ∧
  (∀ (s : State) (l : Link) (q : Request) (rest : List RxFrame) (n : Nat) (row : PtCfg),
      Taken s l q rest n row →
      q.code = reqConfigCommit →
    ∃ t, exec (.configCommit l) s = .next t ∧
      (t.au = s.au ∧ t.act = s.act)) ∧
  (∀ (s : State) (d : Nat),
      s.service = .inService →
      s.periods.articulation = some d →
      s.motion.freshness = .fresh →
      s.motion.gear ≠ .reverse →
    ∃ t, exec .articulationPeriod s = .next t ∧
      (t.au.baseDamping = readTable (jointBreakpoints.zip s.cfg.baseDamping) s.motion.speed ∧
      t.au.jointLimit = readTable (jointBreakpoints.zip s.cfg.jointLimit) s.motion.speed ∧
      (t.au.tag = .steering → t.au.gain = readTable (gainBreakpoints.zip s.cfg.tagGain) s.motion.speed)))

/-- MEASUREMENT_SAMPLE of a part in service whose sampling timer runs completes: each fitted channel takes its raw
count, its figure in rounded stages clamped to the range, and its state by the first-sample, out-of-range and
recovery rules; an unfitted channel stays. The next sample is due 10 ms after this one. The corner map in force
is taken, and each corner's mode follows from its mapped height channel (an unfitted one counts as FAILED), its
valve pair, level freeze and its zone; a corner that becomes FAILED is held and released. The was-out-of-range
flag of a corner is set when that channel enters HELD or FAILED. While the channel is VALID the filtered height
is seeded with 16 times the value, or moves toward it by the rounded 8th at standstill or kneeling and the 64th
otherwise; the bottomed flag is yes exactly at a reported height of -95 or lower; a corner then commanded
EXHAUST is held with reason BOTTOMED; it captures its axle's load when it bottoms without one, and clears it
when it comes up with its zone UP and no level freeze. The first sample of the start-up does the same, starts
the period timers and brings the part into service. That the mode is derived before the filter and the filter
and its BOTTOMED hold come before the supply test is the model's order within one sample (log entry 10). That a
corner still without a filtered height is seeded by the channel then mapped to it, however long VALID, is the
model's choice (log entry 42). That an expiry moves the clock to its moment is the model's own (log entry 1). -/
def Obligations.SampleTakesEveryChannel : Prop :=
  (∀ (s : State) (due : Nat) (raw : PerChan Nat),
      s.service = .inService →
      s.periods.sample = some due →
    ∃ t, exec (.measurementSample raw) s = .next t ∧
      (t.now = max s.now due ∧ t.periods = { s.periods with sample := some (due + 10) } ∧ t.map = s.cfg.cornerMap ∧
      (∀ c : Chan,
        let k := s.cfg.calib.get c
        let r := s.chans.get c
        let n := raw.get c
        let u := t.chans.get c
        let first := rdiv (((n : Int) - k.offset) * k.scale) 4096
        let x := clampInt (chanRange c).1 (chanRange c).2 (if k.gainOn then rdiv (first * k.trim) 1000 else first)
        (k.fitted = false → u = r) ∧
        (k.fitted = true → u.raw = n ∧
          if 40 ≤ n ∧ n ≤ 4055 then
            u.wasOut = r.wasOut ∧
            if r.st = none ∨ r.st = some .valid then u.st = some .valid ∧ u.value = some x
            else if 1000 ≤ r.recTime + 10 then u.st = some .valid ∧ u.value = some x ∧ u.failTime = 0 ∧ u.recTime = 0
            else u.st = r.st ∧ u.value = r.value ∧ u.failTime = r.failTime ∧ u.recTime = r.recTime + 10
          else
            u.value = (if r.st = none then none else r.value) ∧ u.recTime = 0 ∧
            if r.st = none ∨ r.st = some .valid then u.st = some .held ∧ u.failTime = 10 ∧ u.wasOut = true
            else if r.st = some .held then
              if 500 ≤ r.failTime + 10 then u.st = some .failed ∧ u.failTime = 500
              else u.st = some .held ∧ u.failTime = r.failTime + 10
            else u.st = some .failed ∧ u.failTime = r.failTime)) ∧
      (∀ k : Corner,
        let c := s.corner k
        let u := t.corner k
        let own := Chan.h (s.cfg.cornerMap.get k).height
        let still := s.motion.speedState = .standstill
        let low := (t.zone (zoneOf k)).state ≠ .up
        u.mode = (if (t.chans.get own).st = some .failed ∨ (s.cfg.calib.get own).fitted = false ∨ (s.act.c.get k).failed = true
          then .failed else if s.rr.published.any Restraint.levelFreeze then .frozen else if low then .kneel else .ride) ∧
        (c.mode ≠ .failed → u.mode = .failed → u.valve = .hold ∧ u.reason = some .failed ∧ (t.act.c.get k).release = true) ∧
        (u.wasOut = true ↔ c.wasOut = true ∨ ((t.chans.get own).st ≠ (s.chans.get own).st ∧
          ((t.chans.get own).st = some .held ∨ (t.chans.get own).st = some .failed))) ∧
        match (t.chans.get own).validFigure with
        | none => u.filtered = c.filtered ∧ u.bottomed = c.bottomed
        | some x =>
          let seed := fun (n : Nat) => match c.filtered with
            | none => 16 * x
            | some f => f + rdiv (16 * x - f) n
          let deep := decide (rdiv (u.filtered.getD 0) 16 ≤ -95)
          (u.filtered = some (seed 8) ∨ u.filtered = some (seed 64)) ∧
          (still ∨ u.mode = .kneel → u.filtered = some (seed 8)) ∧
          (¬ still → (s.zone (zoneOf k)).state = .up ∨ s.rr.published.any Restraint.levelFreeze = true ∨ (s.act.c.get k).failed = true →
            u.filtered = some (seed 64)) ∧
          u.bottomed = deep ∧
          (c.valve = .exhaust → deep = true → u.valve = .hold ∧
            (u.mode = .ride ∨ u.mode = .kneel → u.reason = some .bottomed ∧ (t.act.c.get k).command = some .hold)) ∧
          (deep = true → c.bottomed = false → c.frozen = .absent → u.frozen =
            match (s.bdu.axles.get (axleOf k)).load with
            | some n => .figure n
            | none => .noFigure) ∧
          (deep = true → c.bottomed = true → u.frozen = c.frozen) ∧
          (deep = false → c.bottomed = true → u.frozen = if low ∨ s.rr.published.any Restraint.levelFreeze = true then c.frozen else .absent)))) ∧
  (∀ (s : State) (raw : PerChan Nat),
      s.service = .firstSample →
    ∃ t, exec (.measurementSample raw) s = .next t ∧
      (t.now = s.now ∧ t.service = .inService ∧ t.periods.sample = some (s.now + 10) ∧ t.periods.brake = some (s.now + 10) ∧
      t.periods.levelling = some (s.now + 100) ∧ t.periods.articulation = some (s.now + 20) ∧ t.map = s.cfg.cornerMap ∧
      (∀ c : Chan,
        let k := s.cfg.calib.get c
        let r := s.chans.get c
        let n := raw.get c
        let u := t.chans.get c
        let first := rdiv (((n : Int) - k.offset) * k.scale) 4096
        let x := clampInt (chanRange c).1 (chanRange c).2 (if k.gainOn then rdiv (first * k.trim) 1000 else first)
        (k.fitted = false → u = r) ∧
        (k.fitted = true → u.raw = n ∧
          if 40 ≤ n ∧ n ≤ 4055 then
            u.wasOut = r.wasOut ∧
            if r.st = none ∨ r.st = some .valid then u.st = some .valid ∧ u.value = some x
            else if 1000 ≤ r.recTime + 10 then u.st = some .valid ∧ u.value = some x ∧ u.failTime = 0 ∧ u.recTime = 0
            else u.st = r.st ∧ u.value = r.value ∧ u.failTime = r.failTime ∧ u.recTime = r.recTime + 10
          else
            u.value = (if r.st = none then none else r.value) ∧ u.recTime = 0 ∧
            if r.st = none ∨ r.st = some .valid then u.st = some .held ∧ u.failTime = 10 ∧ u.wasOut = true
            else if r.st = some .held then
              if 500 ≤ r.failTime + 10 then u.st = some .failed ∧ u.failTime = 500
              else u.st = some .held ∧ u.failTime = r.failTime + 10
            else u.st = some .failed ∧ u.failTime = r.failTime)) ∧
      (∀ k : Corner,
        let c := s.corner k
        let u := t.corner k
        let own := Chan.h (s.cfg.cornerMap.get k).height
        let still := s.motion.speedState = .standstill
        let low := (t.zone (zoneOf k)).state ≠ .up
        u.mode = (if (t.chans.get own).st = some .failed ∨ (s.cfg.calib.get own).fitted = false ∨ (s.act.c.get k).failed = true
          then .failed else if s.rr.published.any Restraint.levelFreeze then .frozen else if low then .kneel else .ride) ∧
        (c.mode ≠ .failed → u.mode = .failed → u.valve = .hold ∧ u.reason = some .failed ∧ (t.act.c.get k).release = true) ∧
        (u.wasOut = true ↔ c.wasOut = true ∨ ((t.chans.get own).st ≠ (s.chans.get own).st ∧
          ((t.chans.get own).st = some .held ∨ (t.chans.get own).st = some .failed))) ∧
        match (t.chans.get own).validFigure with
        | none => u.filtered = c.filtered ∧ u.bottomed = c.bottomed
        | some x =>
          let seed := fun (n : Nat) => match c.filtered with
            | none => 16 * x
            | some f => f + rdiv (16 * x - f) n
          let deep := decide (rdiv (u.filtered.getD 0) 16 ≤ -95)
          (u.filtered = some (seed 8) ∨ u.filtered = some (seed 64)) ∧
          (still ∨ u.mode = .kneel → u.filtered = some (seed 8)) ∧
          (¬ still → (s.zone (zoneOf k)).state = .up ∨ s.rr.published.any Restraint.levelFreeze = true ∨ (s.act.c.get k).failed = true →
            u.filtered = some (seed 64)) ∧
          u.bottomed = deep ∧
          (c.valve = .exhaust → deep = true → u.valve = .hold ∧
            (u.mode = .ride ∨ u.mode = .kneel → u.reason = some .bottomed ∧ (t.act.c.get k).command = some .hold)) ∧
          (deep = true → c.bottomed = false → c.frozen = .absent → u.frozen =
            match (s.bdu.axles.get (axleOf k)).load with
            | some n => .figure n
            | none => .noFigure) ∧
          (deep = true → c.bottomed = true → u.frozen = c.frozen) ∧
          (deep = false → c.bottomed = true → u.frozen = if low ∨ s.rr.published.any Restraint.levelFreeze = true then c.frozen else .absent))))

/-- At a sample of a part in service SUPPLY_LOW begins when V is below the trip point; while it holds, the restore
timer runs from the first sample at or above the restore figure and stops at one below it; with V FAILED or
without value neither is tested and the restore timer stops. Each comparator is false without a figure, falls
below its falling figure and rises at its rising figure; the first sample decides by the rising figure. HOLD_OK
reads R3, FILL_OK and RISE_RESERVE read R4. When SUPPLY_LOW begins every modulator is released and every moving
valve is commanded HOLD; when HOLD_OK or FILL_OK falls every filling valve is commanded HOLD with reason AIR
(when both come at one sample, either reason may stand, log entry 4); with neither, a corner in RIDE or KNEEL
that has not bottomed keeps its valve. A HOLD_OK that rises takes an ARMING hold that is requested at standstill
to APPLYING with the fresh hold pressure, and otherwise the hold stays as it is. After a change of RISE_RESERVE
every entry stands as an examination leaves it. The first sample of the start-up tests the supply and decides
each comparator by the rising figure. -/
def Obligations.SampleDecidesSupplyAndAir : Prop :=
  (∀ (s : State) (due : Nat) (raw : PerChan Nat),
      s.service = .inService →
      s.periods.sample = some due →
    ∃ t, exec (.measurementSample raw) s = .next t ∧
      (let dec := fun (was : Bool) (fall rise : Nat) (x : Option Int) => match x with
        | none => false
        | some y => decide (((if was && s.sam.sampled then fall else rise : Nat) : Int) ≤ y)
      let begun := s.sam.supplyLow = false ∧ t.sam.supplyLow = true
      let fell := (s.sam.holdOk = true ∧ t.sam.holdOk = false) ∨ (s.sam.fillOk = true ∧ t.sam.fillOk = false)
      (∀ a : Axle, t.act.m.get a = if begun then { s.act.m.get a with release := true } else s.act.m.get a) ∧
      (∀ k : Corner,
        let c := s.corner k
        let u := t.corner k
        let deep := (t.heightChan k).validFigure.isSome = true ∧ u.bottomed = true
        let acts := u.mode = .ride ∨ u.mode = .kneel
        (c.valve = .hold → u.valve = .hold ∧ (acts → u.reason = c.reason)) ∧
        (begun → u.valve = .hold) ∧ (fell → c.valve = .fill → u.valve = .hold) ∧
        (begun ∨ (fell ∧ c.valve = .fill) → c.valve ≠ .hold → u.mode ≠ .failed → (t.act.c.get k).command = some .hold) ∧
        (begun → ¬ fell → acts → c.valve ≠ .hold → ¬ (c.valve = .exhaust ∧ deep) → u.reason = some .supply) ∧
        (fell → acts → c.valve = .fill → u.reason = some .air ∨ (begun ∧ u.reason = some .supply)) ∧
        (¬ begun → ¬ (fell ∧ c.valve = .fill) → ¬ (c.valve = .exhaust ∧ deep) → acts →
          u.valve = c.valve ∧ (t.act.c.get k).command = (s.act.c.get k).command)) ∧
      (s.shc.standstillDue = false →
        let p := match t.chans.g.usable with
          | some g => min (250 + 3 * g.natAbs) (min 700 s.cfg.pMax)
          | none => min 700 s.cfg.pMax
        t.shc = if s.shc.state = .arming ∧ s.sam.holdOk = false ∧ t.sam.holdOk = true ∧ s.shc.holdRequested = true ∧
            s.motion.speedState = .standstill then
          { s.shc with state := .applying, target2 := p, target3 := p, target4 := p, establishTimer := some (t.now + 600)
                       creep := false, ceiling := false, creepTimer := none }
          else s.shc) ∧
      (t.sam.riseReserve ≠ s.sam.riseReserve → ∀ e ∈ t.it.entries,
        e.state = .active ∨ (t.grantFails e.kind e.zone).map EntryState.pending = some e.state) ∧
      t.sam.holdOk = dec s.sam.holdOk s.cfg.thr.holdFall s.cfg.thr.holdRise t.chans.r3.usable ∧
      t.sam.fillOk = dec s.sam.fillOk s.cfg.thr.fillFall s.cfg.thr.fillRise t.chans.r4.usable ∧
      t.sam.riseReserve = dec s.sam.riseReserve s.cfg.thr.riseFall s.cfg.thr.riseRise t.chans.r4.usable ∧ t.sam.sampled = true ∧
      match t.chans.v.usable with
      | none => t.sam.supplyLow = s.sam.supplyLow ∧ t.sam.restoreTimer = none
      | some v =>
        if s.sam.supplyLow then t.sam.supplyLow = true ∧
          t.sam.restoreTimer = if (s.cfg.thr.trip : Int) + 5 ≤ v then some (s.sam.restoreTimer.getD (t.now + 200)) else none
        else if v < s.cfg.thr.trip then t.sam.supplyLow = true ∧ t.sam.restoreTimer = none
        else t.sam.supplyLow = false ∧ t.sam.restoreTimer = s.sam.restoreTimer)) ∧
  (∀ (s : State) (raw : PerChan Nat),
      s.service = .firstSample →
      s.sam.sampled = false →
    ∃ t, exec (.measurementSample raw) s = .next t ∧
      (let dec := fun (rise : Nat) (x : Option Int) => match x with
        | none => false
        | some y => decide ((rise : Int) ≤ y)
      t.sam.holdOk = dec s.cfg.thr.holdRise t.chans.r3.usable ∧
      t.sam.fillOk = dec s.cfg.thr.fillRise t.chans.r4.usable ∧
      t.sam.riseReserve = dec s.cfg.thr.riseRise t.chans.r4.usable ∧ t.sam.sampled = true ∧
      match t.chans.v.usable with
      | none => t.sam.supplyLow = s.sam.supplyLow ∧ t.sam.restoreTimer = none
      | some v =>
        if s.sam.supplyLow then t.sam.supplyLow = true ∧
          t.sam.restoreTimer = if (s.cfg.thr.trip : Int) + 5 ≤ v then some (s.sam.restoreTimer.getD (t.now + 200)) else none
        else if v < s.cfg.thr.trip then t.sam.supplyLow = true ∧ t.sam.restoreTimer = none
        else t.sam.supplyLow = false ∧ t.sam.restoreTimer = s.sam.restoreTimer))

/-- MOTION_FRAME takes the oldest motion frame of the vehicle computer, which is heard. A frame with a figure beyond
its bound or an unknown gear is counted as refused; one with the rolling count of the latest accepted frame as a
repeat; neither changes the rest of the motion record. Any other is accepted: its figures are taken, the record
is FRESH for 100 ms, and the speed state follows from the speed. Pull-away takes RELEASE_WAIT, and HOLD_FAULT
without hold requested, to RELEASING. That a frame whose sender is no longer a participant, or no longer the
vehicle computer, only leaves its buffer is the model's reading (DEDUCED, log entry 12). -/
def Obligations.MotionFrameIsChecked : Prop :=
  (∀ (s : State) (f : RxFrame) (rest : List RxFrame) (n : Nat) (row : PtCfg),
      s.service = .inService →
      s.oldestMotion = some (f, rest) →
      s.participant .chassis f.source = some (n, row) →
      row.role = .vehicleComputer →
    ∃ t, exec .motionFrame s = .next t ∧
      (let m := readMotion f.data
      t.chassis.rx = rest ∧ (t.vol n).presence = .present ∧ (t.vol n).deadline = some (s.now + row.lease) ∧
      if (1500 < m.speed ∨ 1000 < m.brake ∨ 1000 < m.accel ∨ m.gear = none) then t.motion = { s.motion with refused := min 65535 (s.motion.refused + 1) } ∧ t.shc = s.shc ∧ t.it.entries = s.it.entries
      else if s.motion.rolling = some m.rolling then
        t.motion = { s.motion with repeated := min 65535 (s.motion.repeated + 1) } ∧ t.shc = s.shc ∧ t.it.entries = s.it.entries
      else
        t.motion.speed = m.speed ∧ t.motion.brake = m.brake ∧ t.motion.accel = m.accel ∧ some t.motion.gear = m.gear ∧
        t.motion.rolling = some m.rolling ∧ t.motion.acceptedAt = some s.now ∧ t.motion.freshness = .fresh ∧
        t.motion.timer = some (s.now + 100) ∧ t.motion.refused = s.motion.refused ∧ t.motion.repeated = s.motion.repeated ∧
        t.motion.speedState = (if m.speed ≤ 15 then .standstill else if m.speed ≤ 30 then .slow else .moving) ∧
        (50 ≤ m.accel → m.gear ≠ some .neutral →
          (s.shc.state = .releaseWait ∨ (s.shc.state = .holdFault ∧ s.shc.holdRequested = false)) → t.shc.state = .releasing))) ∧
  (∀ (s : State) (f : RxFrame) (rest : List RxFrame),
      s.service = .inService →
      s.oldestMotion = some (f, rest) →
      s.participant .chassis f.source = none →
    ∃ t, exec .motionFrame s = .next t ∧
      (t = { s with chassis := { s.chassis with rx := rest } })) ∧
  (∀ (s : State) (f : RxFrame) (rest : List RxFrame) (n : Nat) (row : PtCfg),
      s.service = .inService →
      s.oldestMotion = some (f, rest) →
      s.participant .chassis f.source = some (n, row) →
      row.role ≠ .vehicleComputer →
    ∃ t, exec .motionFrame s = .next t ∧
      (t = { s with chassis := { s.chassis with rx := rest } }))

/-- At its first expiry a FRESH record becomes STALE with speed state UNKNOWN and the timer running on by 200 ms,
its figures held; a creep under ESTABLISHED stands and its timer stops. At its second it becomes DEMAND_LOST,
the timer stops, and each modulator whose axle has hold target 0 is asked to release. That an expiry moves the
clock to its moment is the model's own (log entry 1). The changes and inputs kept for those still to take them
are the model's own lists (log entry 7). -/
def Obligations.MotionRecordGoesStaleAndLost : Prop :=
  (∀ (s : State) (d : Nat),
      s.service = .inService →
      s.motion.freshness = .fresh →
      s.motion.timer = some d →
    ∃ t, exec .staleExpiry s = .next t ∧
      (t.now = max s.now d ∧
      t.motion = { s.motion with freshness := .stale, timer := some (d + 200), speedState := .unknown } ∧
      (s.shc.state = .established → s.motion.speedState ≠ .unknown → t.shc.state = .established ∧ t.shc.creep = s.shc.creep ∧
        t.shc.ceiling = s.shc.ceiling ∧ t.shc.creepTimer = none))) ∧
  (∀ (s : State) (d : Nat),
      s.service = .inService →
      s.motion.freshness = .stale →
      s.motion.timer = some d →
    ∃ t, exec .demandLostExpiry s = .next t ∧
      (t.now = max s.now d ∧ t.motion = { s.motion with freshness := .demandLost, timer := none } ∧
      (∀ a : Axle, t.act.m.get a = { s.act.m.get a with release := (s.act.m.get a).release || s.shc.target a == 0 }) ∧
      t.act = { s.act with m := t.act.m } ∧ Signalled s t ∧ SameOutside [.now, .motion, .act, .rr] s t))

/-- COIL_CHECK with its timer running completes. A coil that reads open, or reads short while it is energised, is
recorded and counted, and the third in a row fails the channel until reset; any other finding clears the
condition and the count. Which coils a command of a DRIVEN channel energises is read from what the command
drives (DEDUCED, log entry 5): a modulator's always, the one coil of a valve pair that fills or exhausts and
none on HOLD, a damping valve's below 1000, the lock's on FREE. A pair of coils has the condition of a coil that
has one; which of two different ones is recorded is open (log entry 5). TS is overridden while TL holds, and a
failure of TL takes the tag record to FAULT, which is among the resolver's inputs that latch RED, and at that
entry the damping outputs as they stand are sent to DP and DN, 0 to TS and ENGAGED to TL; that the clamp flag
becomes no there is the model's choice (DESIGN CHOICE, log entry 53). A corner whose
valve pair has newly failed is FAILED, held and released; another corner keeps its mode unless its zone changes
state. That an expiry moves the clock to its moment is the model's own (log entry 1). The changes and inputs
kept for those still to take them are the model's own lists (log entry 7). -/
def Obligations.CoilCheckCountsToFailure : Prop :=
  (∀ (s : State) (d : Nat) (found : CoilSenses),
      s.service = .inService →
      s.periods.coil = some d →
    ∃ t, exec (.coilCheck found) s = .next t ∧
      (let eff := fun (energised : Bool) (c : Coil) => if c = .shorted ∧ energised = false then Coil.ok else c
      t.now = max s.now d ∧ t.periods = { s.periods with coil := some (d + 10) } ∧
      (∀ a : Axle, ((found.m.get a = .ok ∨ (found.m.get a = .shorted ∧ (s.act.m.get a).driven = false)) → (t.act.m.get a).coil = .ok ∧ (t.act.m.get a).persist = 0 ∧ (t.act.m.get a).failed = (s.act.m.get a).failed) ∧
        ((found.m.get a = .opened ∨ (found.m.get a = .shorted ∧ (s.act.m.get a).driven = true)) → (t.act.m.get a).coil = found.m.get a ∧ (t.act.m.get a).persist = min 3 ((s.act.m.get a).persist + 1) ∧
          (t.act.m.get a).failed = ((s.act.m.get a).failed || decide (3 ≤ (s.act.m.get a).persist + 1)))) ∧
      (∀ k : Corner, (let x := eff ((s.act.c.get k).driven && (s.act.c.get k).command == some .fill) (found.c.get k).1
        let y := eff ((s.act.c.get k).driven && (s.act.c.get k).command == some .exhaust) (found.c.get k).2
        if x = .ok ∧ y = .ok then (t.act.c.get k).coil = .ok ∧ (t.act.c.get k).persist = 0 ∧ (t.act.c.get k).failed = (s.act.c.get k).failed
        else (t.act.c.get k).coil ≠ .ok ∧ ((t.act.c.get k).coil = x ∨ (t.act.c.get k).coil = y) ∧ (t.act.c.get k).persist = min 3 ((s.act.c.get k).persist + 1) ∧
          (t.act.c.get k).failed = ((s.act.c.get k).failed || decide (3 ≤ (s.act.c.get k).persist + 1)))) ∧
      (let x := eff (s.act.dp.driven && s.act.dp.command.any (fun v => decide (v < 1000))) found.dp.1
        let y := eff (s.act.dp.driven && s.act.dp.command.any (fun v => decide (v < 1000))) found.dp.2
        if x = .ok ∧ y = .ok then t.act.dp.coil = .ok ∧ t.act.dp.persist = 0 ∧ t.act.dp.failed = s.act.dp.failed
        else t.act.dp.coil ≠ .ok ∧ (t.act.dp.coil = x ∨ t.act.dp.coil = y) ∧ t.act.dp.persist = min 3 (s.act.dp.persist + 1) ∧
          t.act.dp.failed = (s.act.dp.failed || decide (3 ≤ s.act.dp.persist + 1))) ∧
      (let x := eff (s.act.dn.driven && s.act.dn.command.any (fun v => decide (v < 1000))) found.dn.1
        let y := eff (s.act.dn.driven && s.act.dn.command.any (fun v => decide (v < 1000))) found.dn.2
        if x = .ok ∧ y = .ok then t.act.dn.coil = .ok ∧ t.act.dn.persist = 0 ∧ t.act.dn.failed = s.act.dn.failed
        else t.act.dn.coil ≠ .ok ∧ (t.act.dn.coil = x ∨ t.act.dn.coil = y) ∧ t.act.dn.persist = min 3 (s.act.dn.persist + 1) ∧
          t.act.dn.failed = (s.act.dn.failed || decide (3 ≤ s.act.dn.persist + 1))) ∧
      (((found.tl = .ok ∨ (found.tl = .shorted ∧ (s.act.tl.driven && s.act.tl.command == some .free) = false)) → t.act.tl.coil = .ok ∧ t.act.tl.persist = 0 ∧ t.act.tl.failed = s.act.tl.failed) ∧
        ((found.tl = .opened ∨ (found.tl = .shorted ∧ (s.act.tl.driven && s.act.tl.command == some .free) = true)) → t.act.tl.coil = found.tl ∧ t.act.tl.persist = min 3 (s.act.tl.persist + 1) ∧
          t.act.tl.failed = (s.act.tl.failed || decide (3 ≤ s.act.tl.persist + 1)))) ∧
      t.act.ts.overridden = lockHolds t.act.tl ∧
      (t.act.tl.failed = true → s.act.tl.failed = false → s.au.tag ≠ .fault →
        t.au.tag = .fault ∧ t.au.fault = some .lockFailed ∧ t.au.commanded = 0 ∧ t.au.clamp = false ∧ t.rr.latest.tagFault = true ∧
        t.act.dp.command = some s.au.dpOut ∧ t.act.dn.command = some s.au.dnOut ∧ t.act.ts.command = some 0 ∧
        t.act.tl.command = some .engaged) ∧
      (∀ k : Corner,
        let new := (t.act.c.get k).failed = true ∧ (s.act.c.get k).failed = false
        (new → (t.corner k).mode = .failed ∧
          ((s.corner k).mode ≠ .failed → (t.corner k).valve = .hold ∧ (t.corner k).reason = some .failed ∧ (t.act.c.get k).release = true)) ∧
        (¬ new → (t.zone (zoneOf k)).state = (s.zone (zoneOf k)).state → (t.corner k).mode = (s.corner k).mode))))

/-- At each brake period the deceleration target is the demand times a_max over 1000, raised to 150 while door at
speed is published; the bias is 75 without a joint angle, 0 below 4.0 degrees and else the excess up to 150; the
force of each axle is its load times the target over 981, rounded, and that of A3 and A4 then takes the bias.
With target 0 every force is 0. Load 6400 at 300 gives 1957, and 7600 at 600 gives 4648. The field is read as
the last published record holds it, also at a period at standstill that comes before the resolver has recomputed
(R109), but for one that comes after the transition from ARMING to APPLYING that the stop hold made at that
standstill: it takes the driver's demand alone (R101; DEDUCED, log entry 39). A hold that is applying at
standstill without such a transition, from RELEASING or at a rise of HOLD_OK, keeps the raise. That an expiry
moves the clock to its moment is the model's own (log entry 1). -/
def Obligations.BrakePeriodComputesForces : Prop :=
  (∀ (s : State) (d : Nat),
      s.service = .inService →
      s.periods.brake = some d →
    ∃ t, exec .brakePeriod s = .next t ∧
      (let a0 := rdivN (s.motion.brake * s.cfg.aMax) 1000
      t.now = max s.now d ∧ t.periods = { s.periods with brake := some (d + 10) } ∧
      t.bdu.target = (
        let door := s.rr.published.map Restraint.doorAtSpeed = some true
        if door ∧ s.shc.standstillTaken = false then max a0 150 else a0) ∧
      t.bdu.bias = (match s.chans.j.usable with
        | none => 75
        | some j => if j.natAbs < 40 then 0 else min 150 (j.natAbs - 40)) ∧
      (∀ a : Axle,
        let r := t.bdu.axles.get a
        let f := rdivN (r.load.getD 0 * t.bdu.target) 981
        r.load.isSome = true ∧ r.force = (if a = .a3 ∨ a = .a4 then rdivN (f * (1000 + t.bdu.bias)) 1000 else f) ∧
        (t.bdu.target = 0 → r.force = 0) ∧
        (r.load = some 6400 → t.bdu.target = 300 → a = .a1 → r.force = 1957) ∧
        (r.load = some 7600 → t.bdu.target = 600 → t.bdu.bias = 0 → a = .a3 → r.force = 4648))))

/-- At each brake period the computed pressure of each axle is 0 when its force is 0; otherwise it is the force
times 10 over its brake factor, rounded, plus its threshold, clamped to p_max, and the saturation flag is yes
exactly when the clamp acted. With factor 38 and threshold 30 a force of 1957 gives 545; with 45, 2080 gives
492; with 30, a force of 1 gives 30. -/
def Obligations.BrakePeriodComputesPressures : Prop :=
  (∀ (s : State) (d : Nat),
      s.service = .inService →
      s.periods.brake = some d →
    ∃ t, exec .brakePeriod s = .next t ∧
      (∀ a : Axle,
        let k := s.cfg.axles.get a
        let r := t.bdu.axles.get a
        let p := if r.force = 0 then 0 else rdivN (r.force * 10) k.factor + k.threshold
        r.pressure = min p s.cfg.pMax ∧ r.saturated = decide (s.cfg.pMax < p) ∧
        (r.force = 1957 → k.factor = 38 → k.threshold = 30 → p = 545) ∧
        (r.force = 2080 → k.factor = 45 → k.threshold = 30 → p = 492) ∧
        (r.force = 1 → k.factor = 30 → k.threshold = 30 → p = 30)))

/-- An axle with a frozen load that has a figure takes the larger such figure of its corners, FROZEN; else one with
a frozen load without a figure takes its substitute load; else, when both its pressure channels are VALID, the
two corner forces plus its unsprung load, LIVE; else its substitute load, SUBSTITUTE. -/
def Obligations.BrakePeriodTakesLoads : Prop :=
  (∀ (s : State) (d : Nat),
      s.service = .inService →
      s.periods.brake = some d →
    ∃ t, exec .brakePeriod s = .next t ∧
      (∀ a : Axle,
        let k := s.cfg.axles.get a
        let r := t.bdu.axles.get a
        let force := fun (p : Int) => rdivN (p.toNat * k.area) 100
        (r.load, r.source) = match (s.corner (axleCorners a).1).frozen, (s.corner (axleCorners a).2).frozen with
          | .figure n, .figure m => (some (max n m), .frozen)
          | .figure n, _ => (some n, .frozen)
          | _, .figure m => (some m, .frozen)
          | .absent, .absent =>
            match (s.pressureChan (axleCorners a).1).validFigure, (s.pressureChan (axleCorners a).2).validFigure with
            | some u, some v => (some (force u + force v + k.unsprung), .live)
            | _, _ => (some k.substitute, .substitute)
          | _, _ => (some k.substitute, .substitute)))

/-- The output of an axle is the larger of its computed pressure and its hold target while the stop hold is APPLYING
to RELEASING, and its computed pressure in OFF and ARMING. A FRESH or STALE record sends each output and clears
the release request; DEMAND_LOST sends a held axle its target and releases an unheld one; AWAITING sends
nothing. Under SUPPLY_LOW the same commands are stored and every modulator is released. A transition of the stop
hold that is due at the end of the period (log entry 39) does not reach its outputs. -/
def Obligations.BrakePeriodSendsCommands : Prop :=
  (∀ (s : State) (d : Nat),
      s.service = .inService →
      s.periods.brake = some d →
    ∃ t, exec .brakePeriod s = .next t ∧
      (∀ a : Axle,
        let r := t.bdu.axles.get a
        let m := s.act.m.get a
        let f := s.motion.freshness
        let st := if s.shc.state = .arming then .arming else t.shc.state
        let h := if s.shc.state = .arming then s.shc.target a else t.shc.target a
        r.output = (if st = .off ∨ st = .arming then r.pressure else max r.pressure h) ∧
        t.act.m.get a = { m with
          command := if f = .fresh ∨ f = .stale then some r.output else if f = .demandLost ∧ 0 < h then some h else m.command
          release := if s.sam.supplyLow then true else if f = .fresh ∨ f = .stale then false
            else if f = .demandLost then decide (h = 0) else m.release }))

/-- At each brake period: in APPLYING and ESTABLISHED each held target rises to the fresh hold pressure 250 + 3 |G|,
at most the lower of 700 and p_max, that figure itself without G; in HOLD_FAULT and RELEASE_WAIT it is kept; in
RELEASING it falls by 10 to 0, and with every target 0 the hold is OFF; a target above p_max is lowered to it.
In APPLYING and HOLD_FAULT, when B2 to B4 are VALID and at least 90 % of their targets, rounded, the hold is
ESTABLISHED, with creep where the bus is SLOW or MOVING, at ceiling with every target at p_max and else with 300
ms, and RELEASE_WAIT without creep when no longer requested. A target above p_max comes down before the step of
the ramp (the model's choice, log entry 50). In ESTABLISHED creep at ceiling begins also when an evaluation
finds a creeping hold at p_max, and a target above p_max is lowered to it in every one of these states (DEDUCED,
log entry 22). OFF changes nothing, and neither does ARMING unless its transition at standstill is due (log
entry 39): it then enters APPLYING if it is requested with HOLD_OK. G = 80 gives 490, and 200 gives 700. -/
def Obligations.HoldEvaluationOfEachState : Prop :=
  (∀ (s : State) (d : Nat),
      s.service = .inService →
      s.periods.brake = some d →
    ∃ t, exec .brakePeriod s = .next t ∧
      (let top := s.cfg.pMax
      let p := match s.chans.g.usable with
        | some g => min (250 + 3 * g.natAbs) (min 700 top)
        | none => min 700 top
      let st := s.shc.state
      let all := fun (f : Nat → Nat) => t.shc.target2 = f s.shc.target2 ∧ t.shc.target3 = f s.shc.target3 ∧ t.shc.target4 = f s.shc.target4
      let mark := fun (a : Axle) => match (s.chans.get (.b a)).validFigure with
        | some x => decide ((rdivN (t.shc.target a * 900) 1000 : Int) ≤ x)
        | none => false
      let marks := mark .a2 && mark .a3 && mark .a4
      (s.chans.g.usable = some 80 → 850 ≤ top → p = 490) ∧ (s.chans.g.usable = some 200 → 850 ≤ top → p = 700) ∧
      t.shc.holdRequested = s.shc.holdRequested ∧
      (st = .off → t.shc = { s.shc with standstillDue := false }) ∧
      (st = .arming → t.shc = if s.shc.standstillDue = true ∧ s.shc.holdRequested = true ∧ s.motion.speedState = .standstill ∧ s.sam.holdOk = true then
          { s.shc with state := .applying, target2 := p, target3 := p, target4 := p, establishTimer := some (t.now + 600)
                       creep := false, ceiling := false, creepTimer := none, standstillDue := false, standstillTaken := true }
        else { s.shc with standstillDue := false }) ∧
      (st = .established →
        let ends := s.shc.creep = true ∧ s.shc.ceiling = false ∧ t.shc.target2 = top ∧ t.shc.target3 = top ∧ t.shc.target4 = top
        t.shc.creep = s.shc.creep ∧ t.shc.ceiling = (s.shc.ceiling || decide ends) ∧
          t.shc.creepTimer = if ends then none else s.shc.creepTimer) ∧
      (st = .applying ∨ st = .established → all fun x => min (max x p) top) ∧
      (st = .holdFault ∨ st = .releaseWait → all fun x => min x top) ∧
      (st = .releasing → (all fun x => min x top - 10) ∧
        t.shc.state = if t.shc.target2 = 0 ∧ t.shc.target3 = 0 ∧ t.shc.target4 = 0 then .off else .releasing) ∧
      (st = .established → t.shc.state = .established) ∧ (st = .releaseWait → t.shc.state = .releaseWait) ∧
      (st = .applying ∨ st = .holdFault →
        
        let slides := s.motion.speedState = .slow ∨ s.motion.speedState = .moving
        let full := t.shc.target2 = top ∧ t.shc.target3 = top ∧ t.shc.target4 = top
        (t.shc.state = if marks then (if s.shc.holdRequested then .established else .releaseWait) else st) ∧
        (marks = true → s.shc.holdRequested = true → t.shc.creep = decide slides ∧ t.shc.ceiling = decide (slides ∧ full) ∧
          t.shc.creepTimer = (if slides ∧ ¬ full then some (t.now + 300) else none) ∧ t.shc.establishTimer = none) ∧
        (marks = true → s.shc.holdRequested = false → t.shc.creep = false ∧ t.shc.ceiling = false ∧ t.shc.creepTimer = none ∧
          t.shc.establishTimer = none) ∧
        (marks = false → t.shc.creep = s.shc.creep ∧ t.shc.ceiling = s.shc.ceiling ∧ t.shc.creepTimer = s.shc.creepTimer ∧
          t.shc.establishTimer = s.shc.establishTimer))))

/-- The establishment timeout takes APPLYING to HOLD_FAULT with its targets kept and the resolver's 3000 ms timer
started. A creep expiry raises each held target by 100, at most to p_max; when all have come to p_max, creep at
ceiling begins, the timer stops and the resolver is given the condition that latches RED, else the timer runs
again for 300 ms. In ESTABLISHED a frame that changes the speed state to SLOW or MOVING begins creep, at ceiling
at once when every target is p_max and else with 300 ms, or starts the stopped timer of a creep that stands; one
that changes it to STANDSTILL ends creep. A frame that leaves the speed state leaves the hold. That an expiry
moves the clock to its moment is the model's own (log entry 1). The changes and inputs kept for those still to
take them are the model's own lists (log entry 7). -/
def Obligations.HoldTimersExpire : Prop :=
  (∀ (s : State) (d : Nat),
      s.service = .inService →
      s.shc.state = .applying →
      s.shc.establishTimer = some d →
    ∃ t, exec .establishmentTimeout s = .next t ∧
      (t.now = max s.now d ∧ t.shc.state = .holdFault ∧ t.shc.establishTimer = none ∧ t.shc.target2 = s.shc.target2 ∧
      t.shc.target3 = s.shc.target3 ∧ t.shc.target4 = s.shc.target4 ∧ t.shc.holdRequested = s.shc.holdRequested ∧
      t.rr.holdFaultTimer = some (t.now + 3000) ∧ t.rr.holdFaultLong = false)) ∧
  (∀ (s : State) (d : Nat),
      s.service = .inService →
      s.shc.creepTimer = some d →
    ∃ t, exec .creepTimerExpiry s = .next t ∧
      (let top := s.cfg.pMax
      t.now = max s.now d ∧ t.shc.state = s.shc.state ∧ t.shc.creep = s.shc.creep ∧
      t.shc.target2 = min (s.shc.target2 + 100) top ∧ t.shc.target3 = min (s.shc.target3 + 100) top ∧
      t.shc.target4 = min (s.shc.target4 + 100) top ∧
      if t.shc.target2 = top ∧ t.shc.target3 = top ∧ t.shc.target4 = top then
        t.shc.ceiling = true ∧ t.shc.creepTimer = none ∧ t.rr.latest.ceiling = true
      else t.shc.ceiling = s.shc.ceiling ∧ t.shc.creepTimer = some (d + 300))) ∧
  (∀ (s : State) (f : RxFrame) (rest : List RxFrame) (n : Nat) (row : PtCfg),
      s.service = .inService →
      s.oldestMotion = some (f, rest) →
      s.participant .chassis f.source = some (n, row) →
      row.role = .vehicleComputer →
      (readMotion f.data).speed ≤ 1500 →
      (readMotion f.data).brake ≤ 1000 →
      (readMotion f.data).accel ≤ 1000 →
      (readMotion f.data).gear ≠ none →
      s.motion.rolling ≠ some (readMotion f.data).rolling →
      s.shc.state = .established →
    ∃ t, exec .motionFrame s = .next t ∧
      (let m := readMotion f.data
      let same := m.speed ≤ 15 ∧ s.motion.speedState = .standstill ∨ 15 < m.speed ∧ m.speed ≤ 30 ∧ s.motion.speedState = .slow ∨
        30 < m.speed ∧ s.motion.speedState = .moving
      let full := s.shc.target2 = s.cfg.pMax ∧ s.shc.target3 = s.cfg.pMax ∧ s.shc.target4 = s.cfg.pMax
      let atTop := if s.shc.creep = true then s.shc.ceiling else decide full
      t.shc = if same then s.shc
        else if m.speed ≤ 15 then { s.shc with
          creep := false, ceiling := false, creepTimer := none, standstillDue := false, standstillTaken := false }
        else { s.shc with
          creep := true, ceiling := atTop, standstillDue := false, standstillTaken := false
          creepTimer := if s.shc.creep = true ∧ s.shc.creepTimer.isSome = true then s.shc.creepTimer
            else if atTop then none else some (s.now + 300) }))

/-- When hold requested becomes yes: OFF enters APPLYING at standstill with HOLD_OK, with each held target at the
fresh hold pressure and 600 ms to establish, else ARMING; RELEASE_WAIT returns to ESTABLISHED, with creep where
the bus is SLOW or MOVING, at ceiling with every target at p_max and else with 300 ms; RELEASING enters APPLYING
with the larger of each target and the fresh figure. When it becomes no: ARMING enters OFF and ESTABLISHED
enters RELEASE_WAIT, which ends creep. Every other state stays, and an unchanged figure changes nothing. An
accepted frame that brings standstill takes an ARMING hold that is requested with HOLD_OK to APPLYING in the
same way; while door at speed is published the transition may instead stand over, and is then taken before a
change of hold requested (log entry 39). The changes and inputs kept for those still to take them are the
model's own lists (log entry 7). -/
def Obligations.HoldFollowsTheRequest : Prop :=
  (∀ (s : State) (v : Bool) (rest : List Bool),
      s.service = .inService →
      s.rr.toShc = v :: rest →
    ∃ t, exec .holdRequestedChange s = .next t ∧
      (let p := match s.chans.g.usable with
        | some g => min (250 + 3 * g.natAbs) (min 700 s.cfg.pMax)
        | none => min 700 s.cfg.pMax
      let ready := s.motion.speedState = .standstill ∧ s.sam.holdOk = true
      let h : ShcRec := if s.shc.standstillDue = true ∧ s.shc.state = .arming ∧ s.shc.holdRequested = true ∧ ready then
          { s.shc with state := .applying, target2 := p, target3 := p, target4 := p, establishTimer := some (s.now + 600)
                       creep := false, ceiling := false, creepTimer := none, standstillDue := false, standstillTaken := true }
        else { s.shc with standstillDue := false }
      let kept := t.shc.target2 = h.target2 ∧ t.shc.target3 = h.target3 ∧ t.shc.target4 = h.target4
      t.rr.toShc = rest ∧ t.shc.holdRequested = v ∧
      (v = s.shc.holdRequested → t.shc = h) ∧
      (v = true → s.shc.holdRequested = false →
        (h.state = .off → ready → t.shc.state = .applying ∧ t.shc.target2 = p ∧ t.shc.target3 = p ∧ t.shc.target4 = p ∧
          t.shc.establishTimer = some (s.now + 600)) ∧
        (h.state = .off → ¬ ready → t.shc.state = .arming ∧ kept) ∧
        (h.state = .releaseWait →
          let slides := s.motion.speedState = .slow ∨ s.motion.speedState = .moving
          let full := h.target2 = s.cfg.pMax ∧ h.target3 = s.cfg.pMax ∧ h.target4 = s.cfg.pMax
          t.shc.state = .established ∧ kept ∧ t.shc.creep = decide slides ∧ t.shc.ceiling = decide (slides ∧ full) ∧
          t.shc.creepTimer = (if slides ∧ ¬ full then some (s.now + 300) else none)) ∧
        (h.state = .releasing → t.shc.state = .applying ∧ t.shc.target2 = max h.target2 p ∧
          t.shc.target3 = max h.target3 p ∧ t.shc.target4 = max h.target4 p ∧ t.shc.establishTimer = some (s.now + 600)) ∧
        (h.state ≠ .off → h.state ≠ .releaseWait → h.state ≠ .releasing → t.shc = { h with holdRequested := true })) ∧
      (v = false → s.shc.holdRequested = true →
        (h.state = .arming → t.shc.state = .off ∧ kept) ∧ (h.state = .established → t.shc.state = .releaseWait ∧ kept ∧ t.shc.creep = false ∧ t.shc.ceiling = false ∧
          t.shc.creepTimer = none) ∧
        (h.state ≠ .arming → h.state ≠ .established → t.shc = { h with holdRequested := false })))) ∧
  (∀ (s : State) (f : RxFrame) (rest : List RxFrame) (n : Nat) (row : PtCfg),
      s.service = .inService →
      s.oldestMotion = some (f, rest) →
      s.participant .chassis f.source = some (n, row) →
      row.role = .vehicleComputer →
      (readMotion f.data).speed ≤ 1500 →
      (readMotion f.data).brake ≤ 1000 →
      (readMotion f.data).accel ≤ 1000 →
      (readMotion f.data).gear ≠ none →
      s.motion.rolling ≠ some (readMotion f.data).rolling →
      (readMotion f.data).speed ≤ 15 →
      s.motion.speedState ≠ .standstill →
      s.shc.state = .arming →
    ∃ t, exec .motionFrame s = .next t ∧
      (let p := match s.chans.g.usable with
        | some g => min (250 + 3 * g.natAbs) (min 700 s.cfg.pMax)
        | none => min 700 s.cfg.pMax
      let h : ShcRec := { s.shc with standstillDue := false, standstillTaken := false }
      let on : ShcRec := { s.shc with state := .applying, target2 := p, target3 := p, target4 := p
                                      establishTimer := some (s.now + 600), creep := false, ceiling := false, creepTimer := none
                                      standstillDue := false, standstillTaken := true }
      if s.shc.holdRequested = true ∧ s.sam.holdOk = true then
        if s.rr.published.map Restraint.doorAtSpeed = some true then t.shc = on ∨ t.shc = { h with standstillDue := true }
        else t.shc = on
      else t.shc = h))

/-- RESTRAINT_RECOMPUTE of a part in service takes one changed input of the oldest moment that is due, whichever of
several (the order is open, log entry 8), at its figure after the first event of that moment that changed it, so
that two events of one moment that change the same input are taken one after the other; the moment goes when no
figure of it is left to take. It leaves the published record equal to what the inputs taken give:
every field of 4.1 by its rule, keep low and kneel depth of each zone among them, with the contributing kinds
and conditions, door at speed and the RED latch kept, and the line and telltales commanded. A record that
differs from the last advances the change count modulo 256, starts the repeat timer, hands each changed field to
its consumer and places a restraint notice on each link; an unchanged one publishes nothing. Stated for states
whose line and telltales hold the commands of the published record. The first of the start-up publishes the
record of the inputs as they stand with the change count unchanged, makes a status page due on each link and
starts the page timer. The changes and inputs kept for those still to take them are the model's own lists (log
entry 7). -/
def Obligations.RecomputationPublishesTheRecord : Prop :=
  (∀ (s : State) (b : Restraint),
      s.service = .inService ∨ s.service = .firstSample →
      LineFollowsRecord s →
      s.rr.published = some b →
    ∃ t, exec .restraintRecompute s = .next t ∧
      ((match s.rr.due with
        | [] => t.rr.view = s.rr.view ∧ t.rr.due = []
        | moment :: more =>
          let settled := fun (w : RrIn) (m : List RrIn) => ∀ u ∈ m, ∀ i : RrInput, i.differs w u = false
          (settled s.rr.view moment → t.rr.view = s.rr.view ∧ t.rr.due = more) ∧
          (¬ settled s.rr.view moment → ∃ (i : RrInput) (before after : List RrIn) (v : RrIn), moment = before ++ v :: after ∧
            (∀ u ∈ before, i.differs s.rr.view u = false) ∧ i.differs s.rr.view v = true ∧ t.rr.view = i.take s.rr.view v ∧
            (let left := before.map (fun u => i.take u t.rr.view) ++ v :: after
            (settled t.rr.view left → t.rr.due = more) ∧ (¬ settled t.rr.view left → t.rr.due = left :: more)))) ∧
      t.rr.noted = s.rr.noted ∧
      match t.rr.published with
        | none => False
        | some r => FieldsFollow t.rr.view r ∧ r.doorAtSpeed = doorAfter t.rr.view s.rr.doorAtSpeed ∧ t.rr.doorAtSpeed = r.doorAtSpeed ∧
          (r.amber = true ↔ AmberHolds t.rr.view) ∧
          (r.red = true ↔ s.rr.redLatch = true ∨ r.doorAtSpeed = true ∨ t.rr.view.ceiling = true ∨ s.rr.holdFaultLong = true ∨
            t.rr.view.tagFault = true) ∧ t.rr.redLatch = r.red ∧ t.rr.holdFaultTimer = s.rr.holdFaultTimer ∧ t.rr.holdFaultLong = s.rr.holdFaultLong ∧
          t.act = { s.act with line := t.act.line, amber := t.act.amber, red := t.act.red } ∧
          t.act.line.command = some (if r.driveInhibit then .asserted else .clear) ∧
          t.act.amber.command = some (if r.amber then .on else .off) ∧ t.act.red.command = some (if r.red then .on else .off) ∧
          (if r = b then t.rr.count = s.rr.count ∧ t.rr.repeatTimer = s.rr.repeatTimer ∧
            t.rr.toShc = s.rr.toShc ∧ t.rr.toFront = s.rr.toFront ∧ t.rr.toRear = s.rr.toRear ∧ t.rr.toLu = s.rr.toLu ∧ t.rr.toAu = s.rr.toAu ∧ ∀ l : Link, t.link l = (s.link l).fill
          else t.rr.count = (s.rr.count + 1) % 256 ∧ t.rr.repeatTimer = some (s.now + 1000) ∧
            t.rr.toShc = (if b.holdRequested = r.holdRequested then s.rr.toShc else s.rr.toShc ++ [r.holdRequested]) ∧
            t.rr.toFront = (if b.depthFront = r.depthFront ∧ b.keepLowFront = r.keepLowFront then s.rr.toFront
              else s.rr.toFront ++ [(r.depthFront, r.keepLowFront)]) ∧
            t.rr.toRear = (if b.depthRear = r.depthRear ∧ b.keepLowRear = r.keepLowRear then s.rr.toRear
              else s.rr.toRear ++ [(r.depthRear, r.keepLowRear)]) ∧
            t.rr.toLu = (if b.levelFreeze = r.levelFreeze then s.rr.toLu else s.rr.toLu ++ [r.levelFreeze]) ∧
            t.rr.toAu = (s.rr.toAu || b.tagCentre != r.tagCentre) ∧
            ∀ l : Link, t.link l = ((s.link l).placeRestraint (.restraint r t.rr.count)).fill) ∧
          SameOutside [.draws, .rr, .act, .links] s t)) ∧
  (∀ (s : State),
      s.service = .publish →
      s.rr.published = none →
    ∃ t, exec .restraintRecompute s = .next t ∧
      (let was := fun (q : List Bool) (v : Bool) => if v = true then q ++ [v] else q
      let zone := fun (q : List (Nat × Bool)) (n : Nat) (v : Bool) => if n = 0 ∧ v = false then q else q ++ [(n, v)]
      t.service = .firstSample ∧ t.pageTimer = some (s.now + 50) ∧ t.rr.view = s.rr.view ∧ t.rr.due = s.rr.due ∧
      match t.rr.published with
        | none => False
        | some r => FieldsFollow s.rr.view r ∧ r.doorAtSpeed = doorAfter s.rr.view s.rr.doorAtSpeed ∧ t.rr.doorAtSpeed = r.doorAtSpeed ∧
          (r.amber = true ↔ AmberHolds s.rr.view) ∧
          (r.red = true ↔ s.rr.redLatch = true ∨ r.doorAtSpeed = true ∨ s.rr.view.ceiling = true ∨ s.rr.holdFaultLong = true ∨
            s.rr.view.tagFault = true) ∧ t.rr.redLatch = r.red ∧ t.rr.holdFaultTimer = s.rr.holdFaultTimer ∧ t.rr.holdFaultLong = s.rr.holdFaultLong ∧
          t.act = { s.act with line := t.act.line, amber := t.act.amber, red := t.act.red } ∧
          t.act.line.command = some (if r.driveInhibit then .asserted else .clear) ∧
          t.act.amber.command = some (if r.amber then .on else .off) ∧ t.act.red.command = some (if r.red then .on else .off) ∧
          t.rr.count = s.rr.count ∧ t.rr.repeatTimer = some (s.now + 1000) ∧
          t.rr.toShc = was s.rr.toShc r.holdRequested ∧ t.rr.toFront = zone s.rr.toFront r.depthFront r.keepLowFront ∧
          t.rr.toRear = zone s.rr.toRear r.depthRear r.keepLowRear ∧ t.rr.toLu = was s.rr.toLu r.levelFreeze ∧
          t.rr.toAu = (s.rr.toAu || r.tagCentre) ∧
          (∀ l : Link, t.link l = ((s.link l).placeRestraint (.restraint r s.rr.count)).pageDue.fill) ∧
          SameOutside [.rr, .act, .links, .pageTimer, .service] s t))

/-- RESTRAINT_REPEAT places the published record again with its change count on both links, after 1000 ms, and
changes neither. HOLD_FAULT_TIMER_EXPIRY sets HOLD_FAULT_LONG, latches RED and publishes a record with RED on.
That the record is recomputed within the expiry, and not as an event of its own, is the model's reading of R74
(log entry 8). That an expiry moves the clock to its moment is the model's own (log entry 1). -/
def Obligations.ResolverTimersExpire : Prop :=
  (∀ (s : State) (d : Nat) (r : Restraint),
      s.service = .inService →
      s.rr.repeatTimer = some d →
      s.rr.published = some r →
    ∃ t, exec .restraintRepeat s = .next t ∧
      (t.now = max s.now d ∧ t.rr = { s.rr with repeatTimer := some (d + 1000) } ∧
      (∀ l : Link, t.link l = ((s.link l).placeRestraint (.restraint r s.rr.count)).fill) ∧ SameOutside [.now, .rr, .links] s t)) ∧
  (∀ (s : State) (d : Nat),
      s.service = .inService →
      s.rr.holdFaultTimer = some d →
    ∃ t, exec .holdFaultTimerExpiry s = .next t ∧
      (t.now = max s.now d ∧ t.rr.holdFaultTimer = none ∧ t.rr.holdFaultLong = true ∧ t.rr.redLatch = true ∧
      (t.rr.published.map Restraint.red) = some true ∧ SameOutside [.now, .rr, .act, .links] s t))

/-- At a levelling period each corner takes valve and reason by the first case: FAILED or its height channel left
without a state by a commit, height absent or HELD, SUPPLY_LOW, FROZEN, braking above 200, error inside the
deadband, an error of a RIDE corner away from standstill not yet persistent, too high and bottomed, too high,
too low with air, too low without. The persistence time and the channel of the valve follow, and the error sum
and level flag are taken. A RAISED ride level returns to NORMAL with cause SPEED at a period with a FRESH speed
above 300, after the corners have decided, and at every other period it stays with its cause; after a return
each RIDE corner's persistence time stands at its end; its valve is stated there for the corners whose mode is
the one their inputs give, or whose height channel has no state. After a change of whether a zone holds a FAILED
corner every entry stands as an examination leaves it, with its notices where one zone alone has changed. That
the error sum of that period is taken with the targets after the return is the model's choice (log entry 40).
That the record of a corner taken as for a FAILED channel keeps its mode until the next sample is the model's
choice (log entry 41). That an expiry moves the clock to its moment is the model's own (log entry 1). The
changes and inputs kept for those still to take them are the model's own lists (log entry 7). -/
def Obligations.LevellingPeriodDecidesValves : Prop :=
  (∀ (s : State) (d : Nat),
      s.service = .inService →
      s.periods.levelling = some d →
      ¬ (s.lu.ride = .raised ∧ s.motion.freshness = .fresh ∧ 300 < s.motion.speed) →
    ∃ t, exec .levellingPeriod s = .next t ∧
      (t.now = max s.now d ∧ t.periods = { s.periods with levelling := some (d + 100) } ∧
      (∀ k : Corner,
        let c := s.corner k
        let u := t.corner k
        let m := if (s.heightChan k).st = none then .failed else c.mode
        let lost := c.filtered = none ∨ (s.heightChan k).st = some .held
        let e := c.target - rdiv (c.filtered.getD 0) 16
        let still := s.motion.speedState = .standstill
        let band : Nat := if m = .kneel ∨ (m = .ride ∧ still) then 6 else 12
        let calm := lost ∨ s.sam.supplyLow = true ∨ 200 < s.bdu.target ∨ e.natAbs ≤ band
        let time := if m ≠ .ride ∨ calm then 0 else min 2000 (c.persist + 100)
        u.persist = time ∧ (u.valve, u.reason) =
          (if m = .failed then (.hold, some .failed)
          else if lost then (.hold, some .heightHeld)
          else if s.sam.supplyLow = true then (.hold, some .supply)
          else if m = .frozen then (.hold, some .freeze)
          else if 200 < s.bdu.target then (.hold, some .braking)
          else if e.natAbs ≤ band then (.hold, none)
          else if m = .ride ∧ ¬ still ∧ time < 2000 then (.hold, some .persistence)
          else if e < 0 ∧ c.bottomed = true then (.hold, some .bottomed)
          else if e < 0 then (.exhaust, none)
          else if s.sam.holdOk = true ∧ s.sam.fillOk = true then (.fill, none)
          else (.hold, some .air)) ∧
        t.act.c.get k = (if m = .failed then { s.act.c.get k with release := true }
          else { s.act.c.get k with command := some u.valve, release := false }) ∧
        u.mode = c.mode ∧ u.target = c.target ∧ u.filtered = c.filtered ∧ u.frozen = c.frozen ∧ u.bottomed = c.bottomed ∧
        u.wasOut = c.wasOut) ∧
      (∀ z : Zone, t.zone z = s.zone z) ∧ t.lu.ride = s.lu.ride ∧ t.lu.cause = s.lu.cause ∧ t.lu.freeze = s.lu.freeze ∧
      t.lu.errorSum = (allCorners.map fun k => match (t.corner k).filtered with
        | some f => min 220 ((t.corner k).target - rdiv f 16).natAbs
        | none => 220).sum ∧
      t.lu.levelFlag = decide (s.motion.speedState = .standstill ∧ t.lu.errorSum ≤ 24) ∧ (∀ l : Link, t.link l = (s.link l).fill) ∧ SameOutside [.now, .periods, .lu, .act, .links] s t)) ∧
  (∀ (s : State) (d : Nat),
      s.service = .inService →
      s.periods.levelling = some d →
      s.lu.ride = .raised →
      s.motion.freshness = .fresh →
      300 < s.motion.speed →
    ∃ t, exec .levellingPeriod s = .next t ∧
      (t.now = max s.now d ∧ t.lu.ride = .normal ∧ t.lu.cause = .speed ∧ t.periods = { s.periods with levelling := some (d + 100) } ∧
      (∀ k : Corner,
        let c := s.corner k
        let u := t.corner k
        let m := if (s.heightChan k).st = none then .failed else c.mode
        let lost := c.filtered = none ∨ (s.heightChan k).st = some .held
        let e := c.target - rdiv (c.filtered.getD 0) 16
        let still := s.motion.speedState = .standstill
        let band : Nat := if m = .kneel ∨ (m = .ride ∧ still) then 6 else 12
        let calm := lost ∨ s.sam.supplyLow = true ∨ 200 < s.bdu.target ∨ e.natAbs ≤ band
        let time := if m ≠ .ride ∨ calm then 0 else min 2000 (c.persist + 100)
        (c.mode = s.cornerMode k ∨ (s.heightChan k).st = none → (u.valve, u.reason) =
          (if m = .failed then (.hold, some .failed)
          else if lost then (.hold, some .heightHeld)
          else if s.sam.supplyLow = true then (.hold, some .supply)
          else if m = .frozen then (.hold, some .freeze)
          else if 200 < s.bdu.target then (.hold, some .braking)
          else if e.natAbs ≤ band then (.hold, none)
          else if m = .ride ∧ ¬ still ∧ time < 2000 then (.hold, some .persistence)
          else if e < 0 ∧ c.bottomed = true then (.hold, some .bottomed)
          else if e < 0 then (.exhaust, none)
          else if s.sam.holdOk = true ∧ s.sam.fillOk = true then (.fill, none)
          else (.hold, some .air)) ∧
        t.act.c.get k = (if m = .failed then { s.act.c.get k with release := true }
          else { s.act.c.get k with command := some u.valve, release := false })) ∧
        (c.mode = .ride → u.mode = .ride → u.persist = 2000) ∧ u.filtered = c.filtered ∧ u.bottomed = c.bottomed ∧
        (t.corner k).target = (if (s.zone (zoneOf k)).state = .lowering ∨ (s.zone (zoneOf k)).state = .down
          then (if doorSide k then -((s.zone (zoneOf k)).target : Int) else rdiv (-((s.zone (zoneOf k)).target : Int)) 4)
          else match (.normal : RideLevel) with
            | .normal => 0
            | .raised => 60)) ∧
      t.lu.errorSum = (allCorners.map fun k => match (t.corner k).filtered with
        | some f => min 220 ((t.corner k).target - rdiv f 16).natAbs
        | none => 220).sum ∧
      t.lu.levelFlag = decide (s.motion.speedState = .standstill ∧ t.lu.errorSum ≤ 24) ∧ SignalledInTurn s.rr t ∧
      ((∃ z : Zone, t.lu.zoneFailed z = s.lu.zoneFailed z) → Signalled s t) ∧ (∀ z : Zone, (∀ y : Zone, y ≠ z → t.lu.zoneFailed y = s.lu.zoneFailed y) →
        let u := if t.lu.zoneFailed z = s.lu.zoneFailed z then s else reexamine { s with lu := t.lu }
        t.it = u.it ∧ ∀ l : Link, t.link l = (u.link l).fill) ∧
      ((∃ z : Zone, t.lu.zoneFailed z ≠ s.lu.zoneFailed z) → ∀ e ∈ t.it.entries,
        e.state = .active ∨ (t.grantFails e.kind e.zone).map EntryState.pending = some e.state) ∧
      SameOutside [.now, .draws, .periods, .lu, .act, .au, .it, .rr, .links] s t))

/-- When the levelling unit takes a change of level freeze, each corner is FAILED if its height channel is FAILED,
unfitted or without a state or its valve has failed, else FROZEN with no persistence while the record last
published has level freeze yes, else KNEEL while its zone is not UP and RIDE, with no persistence, when it is; a
corner that becomes FROZEN while its valve moves is commanded HOLD at once. At a change to yes each corner
captures the load of its axle as the brake record holds it; at a change to no a corner that is not bottomed and
whose zone is UP clears its frozen load while no freeze is published, as does such a corner at any change that
brings its zone to UP. An unchanged figure changes nothing of the levelling unit. The changes and inputs kept
for those still to take them are the model's own lists (log entry 7). -/
def Obligations.LevelFreezeHoldsEveryCorner : Prop :=
  (∀ (s : State) (v : Bool) (rest : List Bool),
      s.service = .inService →
      s.rr.toLu = v :: rest →
    ∃ t, exec .levelFreezeChange s = .next t ∧
      (let lost := fun (k : Corner) => (s.heightChan k).st = some .failed ∨ (s.heightChan k).st = none ∨
        (s.cfg.calib.get (.h (s.map.get k).height)).fitted = false ∨ (s.act.c.get k).failed = true
      let on := s.rr.published.any Restraint.levelFreeze
      t.lu.freeze = v ∧ SameOutside [.draws, .rr, .lu, .act, .au, .it, .links] s t ∧
      (v = s.lu.freeze → t.rr = { s.rr with toLu := rest } ∧ t.lu = s.lu ∧ t.act = s.act ∧ t.it.entries = s.it.entries) ∧
      (v ≠ s.lu.freeze → SignalledInTurn { s.rr with toLu := rest } t ∧
        ((∃ z : Zone, t.lu.zoneFailed z = s.lu.zoneFailed z) → SignalledOnce { s.rr with toLu := rest } t)) ∧
      (v ≠ s.lu.freeze → ∀ k : Corner,
        let c := s.corner k
        let u := t.corner k
        let up := (t.zone (zoneOf k)).state = .up
        let clear := up ∧ on = false ∧ c.bottomed = false
        u.mode = (if lost k then .failed else if on then .frozen else if up then .ride else .kneel) ∧
        (c.mode ≠ u.mode → (u.mode = .failed ∨ u.mode = .frozen → u.valve = .hold) ∧ (u.mode = .ride → u.persist = 0) ∧
          (u.mode = .frozen → u.persist = 0 ∧
            (c.valve ≠ .hold → u.reason = some .freeze ∧ (t.act.c.get k).command = some .hold))) ∧
        (v = true → u.frozen =
          if clear ∧ (s.zone (zoneOf k)).state ≠ .up then .absent
          else match (s.bdu.axles.get (axleOf k)).load with
            | some n => .figure n
            | none => .noFigure) ∧
        (v = false → u.frozen = if clear then .absent else c.frozen))))

/-- A zone in UP, RISING or STUCK_LOW that takes a depth above 0 at standstill is LOWERING with 6000 ms to reach it,
or DOWN exactly when every door-side corner has reached it: bottomed, FAILED, or not FROZEN and within 8 mm of
its target; away from standstill it only holds the depth. Door-side corners take the depth as target, far-side
corners a quarter, downward; they enter KNEEL unless FAILED or FROZEN, and from UP capture their loads. In DOWN
a deeper depth lowers again at standstill and waits otherwise, in LOWERING it starts the time again; a shallower
one becomes the target; the same test then decides between LOWERING and DOWN, and in DOWN clears the incomplete
flag. The other zone stays as it is. A motion frame that brings standstill lowers in the same way each zone that
holds a depth above 0 in UP, RISING or STUCK_LOW, or a deeper one in DOWN. At a sample a LOWERING zone comes to
DOWN exactly when the test holds, and a DOWN zone clears its incomplete flag; stated there for a zone whose
corners keep their modes. Where an entry changes whether the zone holds a FAILED corner, the entries are
examined again. That the corners are tested at once at the entry and at a change of depth is the model's reading
(DEDUCED, log entry 16). The changes and inputs kept for those still to take them are the model's own lists (log
entry 7). -/
def Obligations.ZoneFollowsThePublishedDepth : Prop :=
  (∀ (s : State) (z : Zone) (d : Nat) (low : Bool) (rest : List (Nat × Bool)),
      s.service = .inService →
      s.rr.toZone z = (d, low) :: rest →
      0 < d →
      ¬ (d = (s.zone z).depth ∧ low = (s.zone z).keepLow) →
      (s.zone z).state = .up ∨ (s.zone z).state = .rising ∨ (s.zone z).state = .stuckLow →
      s.motion.speedState = .standstill →
    ∃ t, exec (.zoneRestraintUpdate z) s = .next t ∧
      (let there := ∀ k ∈ zoneCorners z, doorSide k = true → (t.corner k).bottomed = true ∨ (t.corner k).mode = .failed ∨
        ((t.corner k).mode ≠ .frozen ∧
          ((t.corner k).filtered.any fun f => decide ((rdiv f 16 - (t.corner k).target).natAbs ≤ 8)) = true)
      t.zone z = { s.zone z with
          depth := d, keepLow := low, target := d, incomplete := false, override := false
          state := if there then .down else .lowering, timer := if there then none else some (s.now + 6000) } ∧
      (∀ k ∈ zoneCorners z, (t.corner k).target = (if doorSide k then -(d : Int) else rdiv (-(d : Int)) 4) ∧ (t.corner k).filtered = (s.corner k).filtered ∧
          (t.corner k).bottomed = (s.corner k).bottomed ∧
          (t.corner k).mode = (if ((s.heightChan k).st = some .failed ∨ (s.heightChan k).st = none ∨ (s.cfg.calib.get (.h (s.map.get k).height)).fitted = false ∨ (s.act.c.get k).failed = true) then .failed
            else if s.rr.published.any Restraint.levelFreeze then .frozen else .kneel) ∧
          (t.corner k).frozen = (if (s.zone z).state = .up then (match (s.bdu.axles.get (axleOf k)).load with
            | some n => .figure n
            | none => .noFigure)
            else (s.corner k).frozen)) ∧
      (∀ y : Zone, y ≠ z → t.zone y = s.zone y ∧ ∀ k ∈ zoneCorners y, t.corner k = s.corner k) ∧
      (z = .rear → t.au.causes.rearZone = true ∧ (s.au.tag = .steering → t.au.tag = .centring ∧ t.au.target = 0)) ∧
      SignalledInTurn (s.rr.setToZone z rest) t ∧ (let u := if t.lu.zoneFailed z = s.lu.zoneFailed z then s else reexamine { s with lu := t.lu }
        t.it = u.it ∧ ∀ l : Link, t.link l = (u.link l).fill) ∧ SameOutside [.rr, .lu, .act, .au, .it, .links] s t)) ∧
  (∀ (s : State) (z : Zone) (d : Nat) (low : Bool) (rest : List (Nat × Bool)),
      s.service = .inService →
      s.rr.toZone z = (d, low) :: rest →
      0 < d →
      ¬ (d = (s.zone z).depth ∧ low = (s.zone z).keepLow) →
      (s.zone z).state = .up ∨ (s.zone z).state = .rising ∨ (s.zone z).state = .stuckLow →
      s.motion.speedState ≠ .standstill →
    ∃ t, exec (.zoneRestraintUpdate z) s = .next t ∧
      (t.lu = s.lu.setZone z { s.zone z with depth := d, keepLow := low } ∧
      SignalledOnce (s.rr.setToZone z rest) t ∧ (∀ l : Link, t.link l = (s.link l).fill) ∧ SameOutside [.rr, .lu, .links] s t)) ∧
  (∀ (s : State) (z : Zone) (d : Nat) (low : Bool) (rest : List (Nat × Bool)),
      s.service = .inService →
      s.rr.toZone z = (d, low) :: rest →
      0 < d →
      ¬ (d = (s.zone z).depth ∧ low = (s.zone z).keepLow) →
      (s.zone z).state = .lowering ∨ (s.zone z).state = .down →
    ∃ t, exec (.zoneRestraintUpdate z) s = .next t ∧
      (let x := s.zone z
      let there := ∀ k ∈ zoneCorners z, doorSide k = true → (t.corner k).bottomed = true ∨ (t.corner k).mode = .failed ∨
        ((t.corner k).mode ≠ .frozen ∧
          ((t.corner k).filtered.any fun f => decide ((rdiv f 16 - (t.corner k).target).natAbs ≤ 8)) = true)
      let waits := x.state = .down ∧ x.target < d ∧ s.motion.speedState ≠ .standstill
      (∀ y : Zone, y ≠ z → t.zone y = s.zone y ∧ ∀ k ∈ zoneCorners y, t.corner k = s.corner k) ∧ SignalledInTurn (s.rr.setToZone z rest) t ∧ (let u := if t.lu.zoneFailed z = s.lu.zoneFailed z then s else reexamine { s with lu := t.lu }
        t.it = u.it ∧ ∀ l : Link, t.link l = (u.link l).fill) ∧ SameOutside [.rr, .lu, .act, .au, .it, .links] s t ∧
      if d = x.target ∨ waits then t.zone z = { x with depth := d, keepLow := low } ∧ ∀ k ∈ zoneCorners z, t.corner k = s.corner k
      else if x.state = .down ∧ x.target < d then
        t.zone z = { s.zone z with
          depth := d, keepLow := low, target := d, incomplete := false, override := false
          state := if there then .down else .lowering, timer := if there then none else some (s.now + 6000) } ∧ ∀ k ∈ zoneCorners z, (t.corner k).target = (if doorSide k then -(d : Int) else rdiv (-(d : Int)) 4) ∧ (t.corner k).filtered = (s.corner k).filtered ∧
          (t.corner k).bottomed = (s.corner k).bottomed ∧
          (t.corner k).mode = (if ((s.heightChan k).st = some .failed ∨ (s.heightChan k).st = none ∨ (s.cfg.calib.get (.h (s.map.get k).height)).fitted = false ∨ (s.act.c.get k).failed = true) then .failed
            else if s.rr.published.any Restraint.levelFreeze then .frozen else .kneel) ∧
          (t.corner k).frozen = (if (s.zone z).state = .up then (match (s.bdu.axles.get (axleOf k)).load with
            | some n => .figure n
            | none => .noFigure)
            else (s.corner k).frozen)
      else
        (∀ k ∈ zoneCorners z, t.corner k = { s.corner k with target := (if doorSide k then -(d : Int) else rdiv (-(d : Int)) 4) }) ∧
        if x.state = .down then t.zone z = { x with depth := d, keepLow := low, target := d, incomplete := if there then false else x.incomplete }
        else t.zone z = { x with
          depth := d, keepLow := low, target := d, state := if there then .down else .lowering
          timer := if there then none else if x.target < d then some (s.now + 6000) else x.timer })) ∧
  (∀ (s : State) (f : RxFrame) (rest : List RxFrame) (n : Nat) (row : PtCfg) (z : Zone),
      s.service = .inService →
      s.oldestMotion = some (f, rest) →
      s.participant .chassis f.source = some (n, row) →
      row.role = .vehicleComputer →
      (readMotion f.data).speed ≤ 1500 →
      (readMotion f.data).brake ≤ 1000 →
      (readMotion f.data).accel ≤ 1000 →
      (readMotion f.data).gear ≠ none →
      s.motion.rolling ≠ some (readMotion f.data).rolling →
      (readMotion f.data).speed ≤ 15 →
      s.motion.speedState ≠ .standstill →
    ∃ t, exec .motionFrame s = .next t ∧
      (let there := ∀ k ∈ zoneCorners z, doorSide k = true → (t.corner k).bottomed = true ∨ (t.corner k).mode = .failed ∨
        ((t.corner k).mode ≠ .frozen ∧
          ((t.corner k).filtered.any fun f => decide ((rdiv f 16 - (t.corner k).target).natAbs ≤ 8)) = true)
      let d := (s.zone z).depth
      if (0 < d ∧ ((s.zone z).state = .up ∨ (s.zone z).state = .rising ∨ (s.zone z).state = .stuckLow)) ∨
          ((s.zone z).state = .down ∧ (s.zone z).target < d) then
        t.zone z = { s.zone z with
          depth := d, keepLow := (s.zone z).keepLow, target := d, incomplete := false, override := false
          state := if there then .down else .lowering, timer := if there then none else some (s.now + 6000) } ∧
        ∀ k ∈ zoneCorners z, (t.corner k).target = (if doorSide k then -(d : Int) else rdiv (-(d : Int)) 4) ∧ (t.corner k).filtered = (s.corner k).filtered ∧
          (t.corner k).bottomed = (s.corner k).bottomed ∧
          (t.corner k).mode = (if ((s.heightChan k).st = some .failed ∨ (s.heightChan k).st = none ∨ (s.cfg.calib.get (.h (s.map.get k).height)).fitted = false ∨ (s.act.c.get k).failed = true) then .failed
            else if s.rr.published.any Restraint.levelFreeze then .frozen else .kneel) ∧
          (t.corner k).frozen = (if (s.zone z).state = .up then (match (s.bdu.axles.get (axleOf k)).load with
            | some n => .figure n
            | none => .noFigure)
            else (s.corner k).frozen)
      else t.zone z = s.zone z ∧ ∀ k ∈ zoneCorners z, t.corner k = s.corner k)) ∧
  (∀ (s : State) (due : Nat) (raw : PerChan Nat) (z : Zone),
      s.service = .inService →
      s.periods.sample = some due →
    ∃ t, exec (.measurementSample raw) s = .next t ∧
      (let there := ∀ k ∈ zoneCorners z, doorSide k = true → (t.corner k).bottomed = true ∨ (t.corner k).mode = .failed ∨
        ((t.corner k).mode ≠ .frozen ∧
          ((t.corner k).filtered.any fun f => decide ((rdiv f 16 - (t.corner k).target).natAbs ≤ 8)) = true)
      (∀ k ∈ zoneCorners z, (t.corner k).mode = (s.corner k).mode) →
        ((s.zone z).state = .up → t.zone z = s.zone z) ∧
        ((s.zone z).state = .lowering → t.zone z = if there then { s.zone z with state := .down, timer := none } else s.zone z) ∧
        ((s.zone z).state = .down → t.zone z = if there then { s.zone z with incomplete := false } else s.zone z)))

/-- A zone in LOWERING or DOWN that takes depth 0 with keep low no is RISING with 10000 ms to arrive, or UP exactly
when each of its four corners has arrived: FAILED, or not FROZEN and within 6 mm of the ride-level target; its
target is 0 and each of its corners takes the ride-level target. At UP its flags are clear, its corners leave
KNEEL, and a corner that is not bottomed clears its frozen load unless level freeze stands. With keep low yes it
stays in its state with its target. A zone in UP, RISING or STUCK_LOW only holds the figures, and unchanged
figures change nothing. A motion frame that brings MOVING sends a LOWERING or DOWN zone up in the same way with
moved-while-low set, and sets it for a RISING zone and for a STUCK_LOW zone without override. At a sample a
RISING or STUCK_LOW zone is UP exactly when its corners have arrived; stated there for a zone whose corners
stand in the modes their inputs give. Where an arrival changes whether the zone holds a FAILED corner, the
entries are examined again. That the corners are tested at once at the entry is the model's reading (DEDUCED,
log entry 16). The changes and inputs kept for those still to take them are the model's own lists (log entry 7). -/
def Obligations.ZoneRisesWhenReleased : Prop :=
  (∀ (s : State) (z : Zone) (low : Bool) (rest : List (Nat × Bool)),
      s.service = .inService →
      s.rr.toZone z = (0, low) :: rest →
      ¬ (0 = (s.zone z).depth ∧ low = (s.zone z).keepLow) →
      (s.zone z).state = .lowering ∨ (s.zone z).state = .down →
    ∃ t, exec (.zoneRestraintUpdate z) s = .next t ∧
      (let ride : Int := match s.lu.ride with
        | .normal => 0
        | .raised => 60
      let here := ∀ k ∈ zoneCorners z, (s.corner k).mode = .failed ∨ ((s.corner k).mode ≠ .frozen ∧ ((s.corner k).filtered.any fun f => decide ((ride - rdiv f 16).natAbs ≤ 6)) = true)
      (∀ y : Zone, y ≠ z → t.zone y = s.zone y ∧ ∀ k ∈ zoneCorners y, t.corner k = s.corner k) ∧ SignalledInTurn (s.rr.setToZone z rest) t ∧ (let u := if t.lu.zoneFailed z = s.lu.zoneFailed z then s else reexamine { s with lu := t.lu }
        t.it = u.it ∧ ∀ l : Link, t.link l = (u.link l).fill) ∧ SameOutside [.rr, .lu, .act, .au, .it, .links] s t ∧
      if low then t.zone z = { s.zone z with depth := 0, keepLow := true } ∧ ∀ k : Corner, t.corner k = s.corner k
      else if here then
        t.zone z = { s.zone z with depth := 0, keepLow := false, state := .up, target := 0, incomplete := false, override := false, moved := false, timer := none } ∧
        (∀ k ∈ zoneCorners z, (t.corner k).target = ride ∧ (t.corner k).filtered = (s.corner k).filtered ∧
          (t.corner k).bottomed = (s.corner k).bottomed ∧
          (t.corner k).mode = (if ((s.heightChan k).st = some .failed ∨ (s.heightChan k).st = none ∨ (s.cfg.calib.get (.h (s.map.get k).height)).fitted = false ∨ (s.act.c.get k).failed = true) then .failed
            else if s.rr.published.any Restraint.levelFreeze then .frozen else .ride) ∧
          (t.corner k).frozen = (if s.rr.published.any Restraint.levelFreeze = false ∧ (s.corner k).bottomed = false then .absent else (s.corner k).frozen))
      else
        t.zone z = { s.zone z with
          depth := 0, keepLow := false, state := .rising, target := 0, incomplete := false, timer := some (s.now + 10000) } ∧
        ∀ k ∈ zoneCorners z, t.corner k = { s.corner k with target := ride })) ∧
  (∀ (s : State) (f : RxFrame) (rest : List RxFrame) (n : Nat) (row : PtCfg) (z : Zone),
      s.service = .inService →
      s.oldestMotion = some (f, rest) →
      s.participant .chassis f.source = some (n, row) →
      row.role = .vehicleComputer →
      (readMotion f.data).speed ≤ 1500 →
      (readMotion f.data).brake ≤ 1000 →
      (readMotion f.data).accel ≤ 1000 →
      (readMotion f.data).gear ≠ none →
      s.motion.rolling ≠ some (readMotion f.data).rolling →
      30 < (readMotion f.data).speed →
      s.motion.speedState ≠ .moving →
    ∃ t, exec .motionFrame s = .next t ∧
      (let ride : Int := match s.lu.ride with
        | .normal => 0
        | .raised => 60
      let here := ∀ k ∈ zoneCorners z, (s.corner k).mode = .failed ∨ ((s.corner k).mode ≠ .frozen ∧ ((s.corner k).filtered.any fun f => decide ((ride - rdiv f 16).natAbs ≤ 6)) = true)
      match (s.zone z).state with
      | .up => t.zone z = s.zone z ∧ ∀ k ∈ zoneCorners z, t.corner k = s.corner k
      | .rising => t.zone z = { s.zone z with moved := true } ∧ ∀ k ∈ zoneCorners z, t.corner k = s.corner k
      | .stuckLow => t.zone z = { s.zone z with moved := if (s.zone z).override then (s.zone z).moved else true } ∧
          ∀ k ∈ zoneCorners z, t.corner k = s.corner k
      | _ =>
        if here then t.zone z = { s.zone z with state := .up, target := 0, incomplete := false, override := false, moved := false, timer := none } ∧
          (∀ k ∈ zoneCorners z, (t.corner k).target = ride ∧ (t.corner k).filtered = (s.corner k).filtered ∧
          (t.corner k).bottomed = (s.corner k).bottomed ∧
          (t.corner k).mode = (if ((s.heightChan k).st = some .failed ∨ (s.heightChan k).st = none ∨ (s.cfg.calib.get (.h (s.map.get k).height)).fitted = false ∨ (s.act.c.get k).failed = true) then .failed
            else if s.rr.published.any Restraint.levelFreeze then .frozen else .ride) ∧
          (t.corner k).frozen = (if s.rr.published.any Restraint.levelFreeze = false ∧ (s.corner k).bottomed = false then .absent else (s.corner k).frozen))
        else t.zone z = { s.zone z with
            state := .rising, target := 0, incomplete := false, moved := true, timer := some (s.now + 10000) } ∧
          ∀ k ∈ zoneCorners z, t.corner k = { s.corner k with target := ride })) ∧
  (∀ (s : State) (due : Nat) (raw : PerChan Nat) (z : Zone),
      s.service = .inService →
      s.periods.sample = some due →
      (s.zone z).state = .rising ∨ (s.zone z).state = .stuckLow →
    ∃ t, exec (.measurementSample raw) s = .next t ∧
      (let ride : Int := match s.lu.ride with
        | .normal => 0
        | .raised => 60
      let here := ∀ k ∈ zoneCorners z, (s.corner k).mode = .failed ∨ ((s.corner k).mode ≠ .frozen ∧ ((t.corner k).filtered.any fun f => decide ((ride - rdiv f 16).natAbs ≤ 6)) = true)
      (∀ k ∈ zoneCorners z, (s.corner k).mode =
        if (t.heightChan k).st = some .failed ∨ (t.heightChan k).st = none ∨ (s.cfg.calib.get (.h (t.map.get k).height)).fitted = false ∨ (s.act.c.get k).failed = true
        then .failed else if s.rr.published.any Restraint.levelFreeze then .frozen else .kneel) →
      if here then t.zone z = { s.zone z with state := .up, target := 0, override := false, moved := false, timer := none } ∧
        ∀ k ∈ zoneCorners z, (t.corner k).target = ride ∧ ((t.corner k).mode = .ride ∨ (t.corner k).mode = (s.corner k).mode)
      else t.zone z = s.zone z)) ∧
  (∀ (s : State) (z : Zone) (low : Bool) (rest : List (Nat × Bool)),
      s.service = .inService →
      s.rr.toZone z = (0, low) :: rest →
      ¬ (0 = (s.zone z).depth ∧ low = (s.zone z).keepLow) →
      (s.zone z).state = .up ∨ (s.zone z).state = .rising ∨ (s.zone z).state = .stuckLow →
    ∃ t, exec (.zoneRestraintUpdate z) s = .next t ∧
      (t.lu = s.lu.setZone z { s.zone z with depth := 0, keepLow := low } ∧
      SignalledOnce (s.rr.setToZone z rest) t ∧ (∀ l : Link, t.link l = (s.link l).fill) ∧ SameOutside [.rr, .lu, .links] s t)) ∧
  (∀ (s : State) (z : Zone) (rest : List (Nat × Bool)),
      s.service = .inService →
      s.rr.toZone z = ((s.zone z).depth, (s.zone z).keepLow) :: rest →
    ∃ t, exec (.zoneRestraintUpdate z) s = .next t ∧
      (t = { s with rr := s.rr.setToZone z rest }))

/-- The lowering timer takes LOWERING to DOWN with the incomplete flag; the rising timer takes RISING to STUCK_LOW;
the restore timer ends SUPPLY_LOW. Each stops, and nothing else changes but the clock and what is due to the
resolver. That an expiry moves the clock to its moment is the model's own (log entry 1). The changes and inputs
kept for those still to take them are the model's own lists (log entry 7). -/
def Obligations.ZoneAndRestoreTimersExpire : Prop :=
  (∀ (s : State) (z : Zone) (d : Nat),
      s.service = .inService →
      (s.zone z).state = .lowering →
      (s.zone z).timer = some d →
    ∃ t, exec (.loweringTimerExpiry z) s = .next t ∧
      (t = { s with now := max s.now d, lu := s.lu.setZone z { s.zone z with state := .down, incomplete := true, timer := none }, rr := t.rr } ∧ Signalled s t)) ∧
  (∀ (s : State) (z : Zone) (d : Nat),
      s.service = .inService →
      (s.zone z).state = .rising →
      (s.zone z).timer = some d →
    ∃ t, exec (.risingTimerExpiry z) s = .next t ∧
      (t = { s with now := max s.now d, lu := s.lu.setZone z { s.zone z with state := .stuckLow, timer := none }, rr := t.rr } ∧ Signalled s t)) ∧
  (∀ (s : State) (d : Nat),
      s.service = .inService →
      s.sam.restoreTimer = some d →
    ∃ t, exec .restoreTimerExpiry s = .next t ∧
      (t = { s with now := max s.now d, sam := { s.sam with supplyLow := false, restoreTimer := none }, rr := t.rr } ∧ Signalled s t))

/-- At an articulation period the base damping is the table's figure while FRESH, at least 600 in reverse, else 850;
the joint limit is 300 in reverse, the table's figure while FRESH, else the last forward limit. The output that
resists further fold rises over the last 30 tenths of a degree to 1000 at the limit; beyond it the torque limit
falls by 100 a tenth to 0. Without J both outputs are 1000 and the torque limit is 1000. DP and DN take the
outputs, and the resolver the torque and fold limits. The resolver is given the torque and fold limits as inputs
and takes them in its own time (log entry 7). That the base damping at UNKNOWN speed is 850 whatever the table
holds is the model's choice (log entry 34). That an expiry moves the clock to its moment is the model's own (log
entry 1). The changes and inputs kept for those still to take them are the model's own lists (log entry 7). -/
def Obligations.ArticulationPeriodDampsTheJoint : Prop :=
  (∀ (s : State) (d : Nat),
      s.service = .inService →
      s.periods.articulation = some d →
    ∃ t, exec .articulationPeriod s = .next t ∧
      (let known := s.motion.freshness = .fresh
      let back := s.motion.gear = .reverse
      let read := fun (y : List Int) => readTable (jointBreakpoints.zip y) s.motion.speed
      let base : Int := if known then (if back then max (read s.cfg.baseDamping) 600 else read s.cfg.baseDamping) else 850
      let lim : Int := if back then 300 else if known then read s.cfg.jointLimit else s.au.lastForward
      t.now = max s.now d ∧ t.periods = { s.periods with articulation := some (d + 20) } ∧
      t.au.baseDamping = base ∧ t.au.jointLimit = lim ∧ (known → ¬ back → t.au.lastForward = lim) ∧
      t.act.dp.command = some t.au.dpOut ∧ t.act.dn.command = some t.au.dnOut ∧
      t.rr.latest.torque = t.au.torque ∧ t.rr.latest.foldLimit = t.au.foldLimit ∧ Signalled s t ∧
      match s.chans.j.usable with
      | none => t.au.dpOut = 1000 ∧ t.au.dnOut = 1000 ∧ t.au.torque = 1000 ∧ t.au.foldLimit = false
      | some j =>
        let size : Int := j.natAbs
        let resist : Int := if lim - 30 ≤ size then min 1000 (base + rdiv ((size - (lim - 30)) * (1000 - base)) 30) else base
        t.au.dpOut = (if 0 < j then resist else base).toNat ∧ t.au.dnOut = (if j < 0 then resist else base).toNat ∧
        t.au.foldLimit = decide (lim ≤ size) ∧ t.au.torque = (if lim ≤ size then (1000 - (size - lim) * 100).toNat else 1000)))

/-- In STEERING with no centring cause and no long deviation, a period takes the gain from its table at the speed,
the target as minus J times the gain over 1000, rounded and clamped to 120 with the clamp flag, and moves the
commanded angle to the target when it lies within 16 and else by 16 toward it. TS takes the commanded angle and
TL is commanded FREE. -/
def Obligations.SteeringFollowsTheJoint : Prop :=
  (∀ (s : State) (d : Nat) (j : Int),
      s.service = .inService →
      s.periods.articulation = some d →
      s.au.seeded = true →
      s.au.tag = .steering →
      s.motion.freshness = .fresh →
      s.motion.speedState ≠ .unknown →
      s.motion.speed < 400 →
      s.motion.gear ≠ .reverse →
      s.lu.rear.state = .up →
      s.rr.published.any Restraint.tagCentre = false →
      s.chans.j.usable = some j →
      s.au.deviation < 480 →
    ∃ t, exec .articulationPeriod s = .next t ∧
      (let raw := rdiv (-j * readTable (gainBreakpoints.zip s.cfg.tagGain) s.motion.speed) 1000
      let c := s.au.commanded
      t.au.tag = .steering ∧ t.au.gain = readTable (gainBreakpoints.zip s.cfg.tagGain) s.motion.speed ∧
      t.au.target = max (-120) (min 120 raw) ∧ t.au.clamp = decide (raw < -120 ∨ 120 < raw) ∧
      t.au.commanded = (if (t.au.target - c).natAbs ≤ 16 then t.au.target else if c < t.au.target then c + 16 else c - 16) ∧
      t.act.ts.command = some t.au.commanded ∧ t.act.tl.command = some .free ∧ t.au.seeded = true))

/-- The articulation unit reads tag centre in the last published record. A publication that has changed it is acted
on by TAG_CENTRE_PUBLICATION, at which a record in STEERING with tag centre yes enters CENTRING with target 0; a
period reads it in any case. In CENTRING with any cause, a period steps the commanded angle at most 16 toward
the target; when it comes to 0 with T VALID and within 5, the record is CENTRED and TL is commanded ENGAGED, and
it stays so while a cause holds. With no cause a period returns the record to STEERING with its target computed
and TL FREE. The first period after reset seeds the commanded angle with T and takes no step in CENTRING (log
entry 15). The changes and inputs kept for those still to take them are the model's own lists (log entry 7). -/
def Obligations.CentringLocksTheTag : Prop :=
  (∀ (s : State),
      s.service = .inService →
      s.rr.toAu = true →
    ∃ t, exec .tagCentrePublication s = .next t ∧
      (let v := s.rr.published.any Restraint.tagCentre
      t.rr = { s.rr with toAu := false } ∧ t.au.causes.tagCentre = v ∧
      (s.au.tag = .steering → v = true → t.au.tag = .centring ∧ t.au.target = 0 ∧ t.au.clamp = false) ∧
      (s.au.tag ≠ .steering → t.au.tag = s.au.tag) ∧ t.au.commanded = s.au.commanded ∧ SameOutside [.rr, .au] s t)) ∧
  (∀ (s : State) (d : Nat),
      s.service = .inService →
      s.periods.articulation = some d →
      s.au.seeded = true →
      s.au.tag = .centring →
      s.rr.published.any Restraint.tagCentre = true ∨ s.motion.gear = .reverse ∨ s.lu.rear.state ≠ .up ∨ s.motion.speedState = .unknown ∨ s.chans.j.usable = none ∨ (s.motion.freshness = .fresh ∧ 400 ≤ s.motion.speed) →
      s.au.deviation < 480 →
    ∃ t, exec .articulationPeriod s = .next t ∧
      (let c := s.au.commanded
      let x := s.au.target
      t.au.commanded = (if (x - c).natAbs ≤ 16 then x else if c < x then c + 16 else c - 16) ∧
      t.au.target = x ∧ t.act.ts.command = some t.au.commanded ∧
      (match s.chans.t.validFigure with
        | none => t.au.tag = .centring
        | some p => t.au.tag = if t.au.commanded = 0 ∧ p.natAbs ≤ 5 then .centred else .centring) ∧
      t.act.tl.command = some (if t.au.tag = .centred then .engaged else .free))) ∧
  (∀ (s : State) (d : Nat),
      s.service = .inService →
      s.periods.articulation = some d →
      s.au.seeded = true →
      s.au.tag = .centred →
      s.rr.published.any Restraint.tagCentre = true ∨ s.motion.gear = .reverse ∨ s.lu.rear.state ≠ .up ∨ s.motion.speedState = .unknown ∨ s.chans.j.usable = none ∨ (s.motion.freshness = .fresh ∧ 400 ≤ s.motion.speed) →
    ∃ t, exec .articulationPeriod s = .next t ∧
      (t.au.tag = .centred ∧ t.au.commanded = s.au.commanded ∧ t.act.tl.command = some .engaged)) ∧
  (∀ (s : State) (d : Nat) (j : Int),
      s.service = .inService →
      s.periods.articulation = some d →
      s.au.seeded = true →
      s.au.tag = .centring ∨ s.au.tag = .centred →
      s.motion.freshness = .fresh →
      s.motion.speedState ≠ .unknown →
      s.motion.speed < 400 →
      s.motion.gear ≠ .reverse →
      s.lu.rear.state = .up →
      s.rr.published.any Restraint.tagCentre = false →
      s.chans.j.usable = some j →
      s.au.deviation < 480 →
    ∃ t, exec .articulationPeriod s = .next t ∧
      (t.au.tag = .steering ∧
      t.au.target = max (-120) (min 120 (rdiv (-j * readTable (gainBreakpoints.zip s.cfg.tagGain) s.motion.speed) 1000)) ∧
      t.au.commanded = (if s.au.tag = .centred then 0 else s.au.commanded) ∧ t.act.tl.command = some .free)) ∧
  (∀ (s : State) (d : Nat),
      s.service = .inService →
      s.periods.articulation = some d →
      s.au.seeded = false →
      s.au.tag = .centring →
      s.au.deviation < 480 →
    ∃ t, exec .articulationPeriod s = .next t ∧
      (t.au.seeded = true ∧ t.act.ts.command = some t.au.commanded ∧
      t.au.commanded = (match s.chans.t.validFigure with
        | some x => max (-120) (min 120 x)
        | none => 0)))

/-- At a period in STEERING or CENTRING the deviation timer rises by 20 when T is not VALID or more than 20 from the
commanded angle that stands from the period before, and becomes 0 when it is not; so the twenty-fifth such
period in a row, with 480 ms counted, takes the record to FAULT with cause DEVIATION, commanded angle 0 and TL
commanded ENGAGED, overrides TS and gives the resolver the condition that latches RED. An entry into CENTRED
sets the timer to 0, and a period leaves it in CENTRED and in FAULT. A record in FAULT stays so at every period,
with the commanded angle 0 also where it came there before its first period. That the period at which a CENTRED
record returns to STEERING makes no test, and one at which a CENTRING record returns makes it, is the model's
choice (log entry 15). The changes and inputs kept for those still to take them are the model's own lists (log
entry 7). -/
def Obligations.TagDeviationFaultsAndLocks : Prop :=
  (∀ (s : State) (d : Nat),
      s.service = .inService →
      s.periods.articulation = some d →
      s.au.seeded = true →
      s.au.tag = .steering ∨ s.au.tag = .centring →
      480 ≤ s.au.deviation →
      s.chans.t.validFigure.all (fun p => decide (20 < (p - s.au.commanded).natAbs)) = true →
    ∃ t, exec .articulationPeriod s = .next t ∧
      (t.au.tag = .fault ∧ t.au.fault = some .deviation ∧ t.au.commanded = 0 ∧ t.au.target = 0 ∧
      t.act.ts.command = some 0 ∧ t.act.ts.overridden = true ∧ t.act.tl.command = some .engaged ∧ t.rr.latest.tagFault = true)) ∧
  (∀ (s : State) (d : Nat),
      s.service = .inService →
      s.periods.articulation = some d →
      s.au.seeded = true →
      s.au.tag = .fault →
    ∃ t, exec .articulationPeriod s = .next t ∧
      (t.au.tag = .fault ∧ t.au.fault = s.au.fault ∧ t.au.commanded = s.au.commanded ∧ t.act.tl.command = some .engaged ∧
      t.au.deviation = s.au.deviation)) ∧
  (∀ (s : State) (d : Nat),
      s.service = .inService →
      s.periods.articulation = some d →
      s.au.seeded = false →
      s.au.tag = .fault →
    ∃ t, exec .articulationPeriod s = .next t ∧
      (t.au.tag = .fault ∧ t.au.fault = s.au.fault ∧ t.au.commanded = 0 ∧ t.act.ts.command = some 0 ∧
      t.act.tl.command = some .engaged)) ∧
  (∀ (s : State) (d : Nat),
      s.service = .inService →
      s.periods.articulation = some d →
      s.au.seeded = true →
      s.au.tag = .steering ∨ s.au.tag = .centring →
      s.au.deviation < 480 ∨ ¬ s.chans.t.validFigure.all (fun p => decide (20 < (p - s.au.commanded).natAbs)) = true →
    ∃ t, exec .articulationPeriod s = .next t ∧
      (t.au.deviation = (if t.au.tag = .centred then 0 else if s.chans.t.validFigure.all (fun p => decide (20 < (p - s.au.commanded).natAbs)) = true then s.au.deviation + 20 else 0) ∧
      t.au.tag ≠ .fault ∧ t.au.fault = s.au.fault)) ∧
  (∀ (s : State) (d : Nat),
      s.service = .inService →
      s.periods.articulation = some d →
      s.au.seeded = true →
      s.au.tag = .centred →
    ∃ t, exec .articulationPeriod s = .next t ∧
      (t.au.deviation = s.au.deviation ∧ t.au.tag ≠ .fault))

/-- LEASE_EXPIRY of a PRESENT participant with a deadline makes it SILENT with no deadline and no report context,
and orphans each of its entries, which keep their place, fields and state. Every other row and entry stays, and
no entry is retired. Each entry newly orphaned places its notice on both links in table order, and a context
that stood is answered INVALID with the abandoned mark when the reply queue of the participant's link has room;
that this reply returns the code and the reference of the context's latest frame is the model's choice (log
entry 13). Only LIST frames carry the last-frame mark: the model's choice (log entry 47). That an expiry moves
the clock to its moment is the model's own (log entry 1). The changes and inputs kept for those still to take
them are the model's own lists (log entry 7). -/
def Obligations.LeaseExpiryOrphans : Prop :=
  (∀ (s : State) (n : Nat) (row : PtCfg) (d : Nat),
      s.service = .inService →
      s.cfg.row n = some row →
      (s.vol n).presence = .present →
      (s.vol n).deadline = some d →
    ∃ t, exec (.leaseExpiry n) s = .next t ∧
      (t.now = max s.now d ∧
      t.pt = setNth s.pt n (fun v => { v with presence := .silent, deadline := none, report := none }) ∧
      t.it = { s.it with entries := s.it.entries.map fun e => if e.owner = n then { e with orphaned := true } else e } ∧
      (let ns := (s.it.entries.filter fun e => e.owner == n && !e.orphaned).map fun e =>
          Notice.entryState (s.summary { e with orphaned := true } false) { NoticeCauses.none with orphaning := true }
       let own := match (s.vol n).report with
         | none => s.link row.link
         | some c => if (s.link row.link).replies.length < 8 then
             (s.link row.link).placeReply { replyTo row.node c.code c.ref (.refused .invalid) with
               marks := { (replyTo row.node c.code c.ref (.refused .invalid)).marks with abandoned := true } }
           else s.link row.link
       t.link row.link = (placed ns own).fill ∧ ∀ m : Link, m ≠ row.link → t.link m = (placed ns (s.link m)).fill) ∧
      Signalled s t ∧ SameOutside [.now, .pt, .it, .rr, .links] s t))

/-- When the window expires, or an OVERRIDE of form (c) is taken from the console or the service tool, an OPEN roll
call closes: each in-use row expected as read at the opening and not yet reported gets, in row order at the end
of the table and with the next numbers, an ACTIVE, orphaned HOLD entry with tag 7, zone WHOLE, STOP_BRAKE and
DRIVE_INHIBIT; each PENDING entry is granted or takes its first reason, a HOLD entry being granted; an ACTIVE
entry stays. One notice is placed for each grant, each changed reason and each recovery entry; that of a
recovery entry carries the creation alone (log entry 32). Form (c) is then answered DONE; with the already-
closed mark after the close, where nothing changes; and refused INVALID in AWAITING. The roll call opens at a
motion frame accepted when every fitted channel has been sampled, or at a sample when a frame has been accepted:
the window runs 2000 ms, the expected figure of each in-use row is read, and the ROLL_CALL notice with the
number expected is placed on both links. Stated there for tables in which every entry waits for the roll call.
Only LIST frames carry the last-frame mark: the model's choice (log entry 47). That an expiry moves the clock to
its moment is the model's own (log entry 1). The changes and inputs kept for those still to take them are the
model's own lists (log entry 7). -/
def Obligations.RollCallCloses : Prop :=
  (∀ (s : State) (d : Nat),
      s.service = .inService →
      s.it.rollCall = .opened →
      s.it.window = some d →
    ∃ t, exec .rollCallWindowExpiry s = .next t ∧
      (let missing := (List.range' 1 16).filter fun i => (match s.cfg.row i with
          | some r => r.inUse
          | none => false) && (s.vol i).expected && !(s.vol i).reported
      let failed := fun (e : Entry) => (e.zone ≠ .rear ∧ s.lu.zoneFailed .front = true) ∨ (e.zone ≠ .front ∧ s.lu.zoneFailed .rear = true)
      let why := fun (e : Entry) =>
        if e.kind = .hold then none
        else if s.motion.speedState ≠ .standstill then some Reason.notStandstill
        else if s.shc.state ≠ .established then some .holdNotEstablished
        else if e.kind = .kneel ∧ s.sam.riseReserve = false then some .airReserve
        else if e.kind = .kneel ∧ failed e then some .zoneFailed else none
      let examined := fun (e : Entry) => if e.state = .active then e else { e with state := match why e with
        | none => .active
        | some r => .pending r }
      let recovery := fun (i seq : Nat) => ({
        owner := i, tag := 7, kind := .hold, zone := .whole
        effects := { stopBrake := true, driveInhibit := true, keepLow := false, levelFreeze := false, tagCentre := false }
        state := .active, orphaned := true, depth := none, opening := none, seq := seq } : Entry)
      let made := t.it.entries.drop s.it.entries.length
      let ns := ((s.it.entries.filter fun e => examined e != e).map fun e => Notice.entryState (s.summary (examined e) false)
          (if (examined e).state = .active then { NoticeCauses.none with grant := true } else { NoticeCauses.none with pendingReason := true })) ++
        made.map fun e => .entryState (s.summary e false) { NoticeCauses.none with creation := true }
      t.it.rollCall = .closed ∧ t.it.window = none ∧
      t.it.entries.take s.it.entries.length = s.it.entries.map examined ∧
      made.map (fun e => { e with seq := 0 }) = missing.map (fun i => recovery i 0) ∧
      ((∀ e ∈ s.it.entries, e.seq < s.it.nextSeq) → s.it.nextSeq + missing.length ≤ 4294967295 →
        made = (missing.zip (List.range' s.it.nextSeq missing.length)).map (fun p => recovery p.1 p.2) ∧
        t.it.nextSeq = s.it.nextSeq + missing.length) ∧
      Signalled s t ∧
      t.now = max s.now d ∧ (∀ l : Link, t.link l = (placed ns (s.link l)).fill) ∧ SameOutside [.now, .it, .rr, .links] s t)) ∧
  (∀ (s : State) (l : Link) (q : Request) (rest : List RxFrame) (n : Nat) (row : PtCfg),
      Taken s l q rest n row →
      q.code = reqOverride →
      q.byte 2 = 3 →
      row.role = .driverConsole ∨ row.role = .serviceTool →
      s.it.rollCall = .opened →
    ∃ t, exec (.overrideRollCall l) s = .next t ∧
      (let missing := (List.range' 1 16).filter fun i => (match s.cfg.row i with
          | some r => r.inUse
          | none => false) && (s.vol i).expected && !(s.vol i).reported
      let failed := fun (e : Entry) => (e.zone ≠ .rear ∧ s.lu.zoneFailed .front = true) ∨ (e.zone ≠ .front ∧ s.lu.zoneFailed .rear = true)
      let why := fun (e : Entry) =>
        if e.kind = .hold then none
        else if s.motion.speedState ≠ .standstill then some Reason.notStandstill
        else if s.shc.state ≠ .established then some .holdNotEstablished
        else if e.kind = .kneel ∧ s.sam.riseReserve = false then some .airReserve
        else if e.kind = .kneel ∧ failed e then some .zoneFailed else none
      let examined := fun (e : Entry) => if e.state = .active then e else { e with state := match why e with
        | none => .active
        | some r => .pending r }
      let recovery := fun (i seq : Nat) => ({
        owner := i, tag := 7, kind := .hold, zone := .whole
        effects := { stopBrake := true, driveInhibit := true, keepLow := false, levelFreeze := false, tagCentre := false }
        state := .active, orphaned := true, depth := none, opening := none, seq := seq } : Entry)
      let made := t.it.entries.drop s.it.entries.length
      let ns := ((s.it.entries.filter fun e => examined e != e).map fun e => Notice.entryState (s.summary (examined e) false)
          (if (examined e).state = .active then { NoticeCauses.none with grant := true } else { NoticeCauses.none with pendingReason := true })) ++
        made.map fun e => .entryState (s.summary e false) { NoticeCauses.none with creation := true }
      t.it.rollCall = .closed ∧ t.it.window = none ∧
      t.it.entries.take s.it.entries.length = s.it.entries.map examined ∧
      made.map (fun e => { e with seq := 0 }) = missing.map (fun i => recovery i 0) ∧
      ((∀ e ∈ s.it.entries, e.seq < s.it.nextSeq) → s.it.nextSeq + missing.length ≤ 4294967295 →
        made = (missing.zip (List.range' s.it.nextSeq missing.length)).map (fun p => recovery p.1 p.2) ∧
        t.it.nextSeq = s.it.nextSeq + missing.length) ∧
      Signalled s t ∧
      HeardOnly s t n row ∧ Answered s t l rest ns (q.reply .done) ∧ SameOutside [.pt, .it, .rr, .links] s t)) ∧
  (∀ (s : State) (l : Link) (q : Request) (rest : List RxFrame) (n : Nat) (row : PtCfg),
      Taken s l q rest n row →
      q.code = reqOverride →
      q.byte 2 = 3 →
      row.role = .driverConsole ∨ row.role = .serviceTool →
      s.it.rollCall = .closed →
    ∃ t, exec (.overrideRollCall l) s = .next t ∧
      (HeardOnly s t n row ∧ SameOutside [.pt, .links] s t ∧
      Answered s t l rest [] { q.reply .done with marks := { (q.reply .done).marks with alreadyClosed := true } })) ∧
  (∀ (s : State) (l : Link) (q : Request) (rest : List RxFrame) (n : Nat) (row : PtCfg),
      Taken s l q rest n row →
      q.code = reqOverride →
      q.byte 2 = 3 →
      row.role = .driverConsole ∨ row.role = .serviceTool →
      s.it.rollCall = .awaiting →
    ∃ t, exec (.overrideRollCall l) s = .next t ∧
      (RefusedFor s t l q rest n row .invalid)) ∧
  (∀ (s : State) (f : RxFrame) (rest : List RxFrame) (n : Nat) (row : PtCfg),
      s.service = .inService →
      s.oldestMotion = some (f, rest) →
      s.participant .chassis f.source = some (n, row) →
      row.role = .vehicleComputer →
      (readMotion f.data).speed ≤ 1500 →
      (readMotion f.data).brake ≤ 1000 →
      (readMotion f.data).accel ≤ 1000 →
      (readMotion f.data).gear ≠ none →
      s.motion.rolling ≠ some (readMotion f.data).rolling →
      s.it.rollCall = .awaiting →
      NoGrantBeforeClose s →
      (∀ c : Chan, (s.cfg.calib.get c).fitted = true → (s.chans.get c).st ≠ none) →
    ∃ t, exec .motionFrame s = .next t ∧
      (t.it = { s.it with rollCall := .opened, window := some (s.now + 2000) } ∧
      t.pt = (s.cfg.pt.zip (setNth s.pt n fun v => { v with presence := .present, deadline := some (s.now + row.lease) })).map
        (fun r => { r.2 with expected := r.1.inUse && r.1.expected }) ∧
      t.chassis = (placed [.rollCall 2000 (s.cfg.pt.countP fun c => c.inUse && c.expected)] { s.chassis with rx := rest }).fill ∧
      t.body = (placed [.rollCall 2000 (s.cfg.pt.countP fun c => c.inUse && c.expected)] s.body).fill)) ∧
  (∀ (s : State) (due : Nat) (raw : PerChan Nat),
      s.service = .inService →
      s.periods.sample = some due →
      s.it.rollCall = .awaiting →
      NoGrantBeforeClose s →
    ∃ t, exec (.measurementSample raw) s = .next t ∧
      (if s.motion.acceptedAt = none then t.it = s.it ∧ t.pt = s.pt ∧ ∀ l : Link, t.link l = (s.link l).fill
      else t.it = { s.it with rollCall := .opened, window := some (t.now + 2000) } ∧
        t.pt = (s.cfg.pt.zip s.pt).map (fun r => { r.2 with expected := r.1.inUse && r.1.expected }) ∧
        ∀ l : Link, t.link l = (placed [.rollCall 2000 (s.cfg.pt.countP fun c => c.inUse && c.expected)] (s.link l)).fill))

/-- When the table is re-examined, an ACTIVE entry stays as it is. A PENDING entry becomes ACTIVE when the roll call
is CLOSED and, but for HOLD, the bus is at STANDSTILL with the hold ESTABLISHED and, for KNEEL, RISE_RESERVE is
true and no zone it covers holds a FAILED corner; otherwise its reason is the first of ROLL_CALL,
NOT_STANDSTILL, HOLD_NOT_ESTABLISHED, AIR_RESERVE and ZONE_FAILED that stands against it. Order, number and
every other field stay. Each grant and each changed reason places its notice on both links, in table order. A
motion frame or a STALE_EXPIRY that changes the speed state, and a brake period, an ESTABLISHMENT_TIMEOUT or a
HOLD_REQUESTED_CHANGE that changes the state of the stop hold, re-examine the table so, with these notices; a
hold that goes on to RELEASE_WAIT in the period that establishes it has granted in between what ESTABLISHED
grants; without a change of either no entry changes. At a sample the entries stand so where one of the stop
hold, RISE_RESERVE and the zones with FAILED corners has changed; where several have, each is examined in an
open order (log entry 4), so that every PENDING entry shows the first reason that stands at the end, and one
granted met each condition before or after. Each examination is handed to the resolver by itself: where both
zones have lost their FAILED corners at a sample, a KNEEL of each that has waited is granted, and the resolver
has the table after the one grant and the table after the other to take. At a frame that also changes whether a
zone holds a FAILED corner every entry stands as the last examination leaves it. Stated with the notices for a hold whose transition at
standstill is not due (log entry 39), and at a frame for a roll call that does not await its opening. The
changes and inputs kept for those still to take them are the model's own lists (log entry 7). -/
def Obligations.ReexaminationGrants : Prop :=
  (∀ s : State,
    let failed := fun (e : Entry) => (e.zone ≠ .rear ∧ s.lu.zoneFailed .front = true) ∨ (e.zone ≠ .front ∧ s.lu.zoneFailed .rear = true)
    let why := fun (e : Entry) =>
      if s.it.rollCall ≠ .closed then some Reason.rollCall
      else if e.kind = .hold then none
      else if s.motion.speedState ≠ .standstill then some .notStandstill
      else if s.shc.state ≠ .established then some .holdNotEstablished
      else if e.kind = .kneel ∧ s.sam.riseReserve = false then some .airReserve
      else if e.kind = .kneel ∧ failed e then some .zoneFailed else none
    let examined := fun (e : Entry) => if e.state = .active then e else { e with state := match why e with
        | none => .active
        | some r => .pending r }
    let ns := (s.it.entries.filter fun e => examined e != e).map fun e => Notice.entryState (s.summary (examined e) false)
      (if (examined e).state = .active then { NoticeCauses.none with grant := true } else { NoticeCauses.none with pendingReason := true })
    (reexamine s).it = { s.it with entries := s.it.entries.map examined } ∧
      (∀ l : Link, (reexamine s).link l = placed ns (s.link l)) ∧ SameOutside [.it, .links] s (reexamine s)) ∧
  (∀ (s : State) (f : RxFrame) (rest : List RxFrame) (n : Nat) (row : PtCfg),
      s.service = .inService →
      s.oldestMotion = some (f, rest) →
      s.participant .chassis f.source = some (n, row) →
      row.role = .vehicleComputer →
      (readMotion f.data).speed ≤ 1500 →
      (readMotion f.data).brake ≤ 1000 →
      (readMotion f.data).accel ≤ 1000 →
      (readMotion f.data).gear ≠ none →
      s.motion.rolling ≠ some (readMotion f.data).rolling →
    ∃ t, exec .motionFrame s = .next t ∧
      (let zones := (∀ z : Zone, t.lu.zoneFailed z = s.lu.zoneFailed z)
      let heard := fun (l : Link) => match l with
        | .chassis => { s.chassis with rx := rest }
        | .body => s.body
      if t.motion.speedState = s.motion.speedState then t.shc.state = s.shc.state → t.it.entries = s.it.entries
      else (∀ e ∈ t.it.entries, e.state = .active ∨ (waitsFor t e).map EntryState.pending = some e.state) ∧
        (zones → t.it.entries = s.it.entries.map (examinedIn t) ∧
          (s.it.rollCall ≠ .awaiting → s.shc.standstillDue = false → t.shc.state = s.shc.state →
            ∀ l : Link, t.link l = (placed (noticesIn s t) (heard l)).fill)))) ∧
  (∀ (s : State) (d : Nat),
      s.service = .inService →
      s.motion.freshness = .fresh →
      s.motion.timer = some d →
      s.motion.speedState ≠ .unknown →
    ∃ t, exec .staleExpiry s = .next t ∧
      (t.it.entries = s.it.entries.map (examinedIn t) ∧ (s.shc.standstillDue = false → (∀ l : Link, t.link l = (placed (noticesIn s t) (s.link l)).fill)))) ∧
  (∀ (s : State) (d : Nat),
      s.service = .inService →
      s.periods.brake = some d →
    ∃ t, exec .brakePeriod s = .next t ∧
      (let through := (s.shc.state = .applying ∨ s.shc.state = .holdFault) ∧ t.shc.state = .releaseWait
      let est : State := { s with shc.state := .established }
      if t.shc.state = s.shc.state then t.it = s.it
      else t.it = { s.it with entries := (if through then s.it.entries.map (examinedIn est) else s.it.entries).map (examinedIn t) } ∧
        (¬ through → (∀ l : Link, t.link l = (placed (noticesIn s t) (s.link l)).fill)))) ∧
  (∀ (s : State) (d : Nat),
      s.service = .inService →
      s.shc.state = .applying →
      s.shc.establishTimer = some d →
    ∃ t, exec .establishmentTimeout s = .next t ∧
      (t.shc.state = .holdFault ∧ t.it = { s.it with entries := s.it.entries.map (examinedIn t) } ∧ (∀ l : Link, t.link l = (placed (noticesIn s t) (s.link l)).fill))) ∧
  (∀ (s : State) (v : Bool) (rest : List Bool),
      s.service = .inService →
      s.rr.toShc = v :: rest →
    ∃ t, exec .holdRequestedChange s = .next t ∧
      (if t.shc.state = s.shc.state then t.it = s.it
      else t.it = { s.it with entries := s.it.entries.map (examinedIn t) } ∧ (∀ l : Link, t.link l = (placed (noticesIn s t) (s.link l)).fill))) ∧
  (∀ (s : State) (due : Nat) (raw : PerChan Nat),
      s.service = .inService →
      s.periods.sample = some due →
    ∃ t, exec (.measurementSample raw) s = .next t ∧
      (let hold := decide (t.shc.state ≠ s.shc.state)
      let rise := decide (t.sam.riseReserve ≠ s.sam.riseReserve)
      let front := decide (t.lu.zoneFailed .front ≠ s.lu.zoneFailed .front)
      let rear := decide (t.lu.zoneFailed .rear ≠ s.lu.zoneFailed .rear)
      let met := fun (e : Entry) => t.it.rollCall = .closed ∧ (e.kind = .hold ∨ (t.motion.speedState = .standstill ∧
        t.shc.state = .established ∧ (e.kind = .kneel → (s.sam.riseReserve = true ∨ t.sam.riseReserve = true) ∧
          (e.zone ≠ .rear → s.lu.zoneFailed .front = false ∨ t.lu.zoneFailed .front = false) ∧
          (e.zone ≠ .front → s.lu.zoneFailed .rear = false ∨ t.lu.zoneFailed .rear = false))))
      match [hold, rise, front, rear].countP id with
      | 0 => t.it.entries = s.it.entries
      | 1 => t.it.entries = s.it.entries.map (examinedIn t)
      | _ => (∀ e ∈ t.it.entries, e.state = .active ∨ (waitsFor t e).map EntryState.pending = some e.state) ∧ t.it.entries.length = s.it.entries.length ∧
          ∀ p ∈ s.it.entries.zip t.it.entries, p.2 = { p.1 with state := p.2.state } ∧
            (p.1.state = .active → p.2.state = .active) ∧ (p.1.state ≠ .active → p.2.state = .active → met p.1))) ∧
  (∀ (s : State) (due : Nat) (raw : PerChan Nat) (a b : Entry),
      s.service = .inService →
      s.periods.sample = some due →
      InputsSignalled s →
      s.it.rollCall = .closed →
      s.motion.speedState = .standstill →
      s.shc.state = .established →
      s.sam.riseReserve = true →
      (∀ z : Zone, s.lu.zoneFailed z = true) →
      a ∈ s.it.entries →
      b ∈ s.it.entries →
      a.state ≠ .active →
      b.state ≠ .active →
      a.kind = .kneel →
      b.kind = .kneel →
      a.zone = .front →
      b.zone = .rear →
    ∃ t, exec (.measurementSample raw) s = .next t ∧
      ((∀ z : Zone, t.lu.zoneFailed z = false) → t.sam.riseReserve = true →
        { a with state := .active } ∈ t.it.entries ∧ { b with state := .active } ∈ t.it.entries ∧
        ∃ v : RrIn, t.rr.due = s.rr.due ++ [[v, t.rrInputs]] ∧ v = { t.rrInputs with entries := v.entries } ∧
          v.entries ≠ s.rrInputs.entries ∧ v.entries ≠ t.rrInputs.entries))

/-- While a RESTART is accepted, the link's reply queue is full or a LIST reply is unfinished, no request is taken
from the link: each command that would serve one changes nothing. A request taken from a node that is no
participant of the link is refused NOT_PARTICIPANT, whatever it asks, and changes nothing else; a console-only
request of another role is refused ROLE. That a reply without a summary carries no tag is the model's choice
(log entry 43). Only LIST frames carry the last-frame mark: the model's choice (log entry 47). -/
def Obligations.RequestsWaitOrAreRefused : Prop :=
  (∀ (s : State) (l : Link) (p : Instr × (Request → Bool)), p ∈ serving l → s.canTake l = false → exec p.1 s = .next s) ∧
    (∀ (s : State) (l : Link) (q : Request) (rest : List RxFrame) (p : Instr × (Request → Bool)), p ∈ serving l →
      s.service = .inService → s.canTake l = true → s.oldestRequest l = some (q, rest) → s.participant l q.source = none →
      p.2 q = true →
      ∃ t, exec p.1 s = .next t ∧ Answered s t l rest [] (q.reply (.refused .notParticipant)) ∧ SameOutside [.links] s t) ∧
    (∀ (s : State) (l : Link) (q : Request) (rest : List RxFrame) (n : Nat) (row : PtCfg), Taken s l q rest n row →
      q.code = reqSetRideLevel → row.role ≠ .driverConsole → row.role ≠ .serviceTool →
      ∃ t, exec (.setRideLevel l) s = .next t ∧ RefusedFor s t l q rest n row .role)

/-- The checks of an ASSERT or a staged entry refuse, in this order, a code that names nothing (BAD_FIELD), a kind
the role may not assert (ROLE), and an effect, zone, depth or opening that does not fit the kind (BAD_FIELD);
that a set of effects which is not carried names none is log entry 18, and that a zone code above 3 is refused
whatever the kind is log entry 33. A creation has its place when the entries with it and the places owed to the
roll call are at most 24, and at most 22 for owners other than the driver console. An ASSERT whose fields pass
the checks, whose tag the owner does not hold and which has its place creates one entry at the end of the table
with the next number, the first from the counter on that no entry holds, the zone of its kind, the mandatory
effects and those optional effects it names, the depth clamped to 30 to 90, and the state of one examination.
The sender is heard; the reply is DONE with the entry's summary, marked clamped when the depth was; one creation
notice goes to both links. That a reply without a summary carries no tag is the model's choice (log entry 43).
Only LIST frames carry the last-frame mark: the model's choice (log entry 47). The changes and inputs kept for
those still to take them are the model's own lists (log entry 7). -/
def Obligations.AssertCreatesAnEntry : Prop :=
  (∀ (role : Role) (f : EntryFields),
    let w := f.effects.getD .none
    let may := (f.kind = 1 ∧ role = .doorNode) ∨ (f.kind = 2 ∧ role = .rampNode) ∨
      (f.kind = 3 ∧ (role = .rampNode ∨ role = .driverConsole ∨ role = .serviceTool)) ∨
      (f.kind = 4 ∧ (role = .driverConsole ∨ role = .vehicleComputer ∨ role = .serviceTool)) ∨
      (f.kind = 5 ∧ role = .serviceTool)
    let misfit := (w.keepLow = true ∧ f.kind ≠ 1 ∧ f.kind ≠ 2) ∨ (w.levelFreeze = true ∧ f.kind ≠ 5) ∨
      (w.tagCentre = true ∧ f.kind ≠ 2 ∧ f.kind ≠ 5) ∨ (f.kind = 3 ∧ (f.zone = 0 ∨ f.depth = none)) ∨
      (f.kind ≠ 3 ∧ f.depth ≠ none) ∨ (f.kind ≤ 2 ∧ f.opening = 0) ∨ (2 < f.kind ∧ f.opening ≠ 0)
    checkFields role f =
      if f.kind = 0 ∨ 5 < f.kind ∨ 6 < f.tag ∨ 3 < f.zone ∨ 3 < f.opening then some .badField
      else if ¬ may then some .role else if misfit then some .badField else none) ∧
  (∀ (s : State) (owner : Nat), s.pt.length = 16 →
    let console := fun (i : Nat) => (s.cfg.row i).map PtCfg.role = some .driverConsole
    let owed := fun (i : Nat) => (s.cfg.row i).any (fun r => r.inUse &&
      ((s.it.rollCall == .awaiting && r.expected) || (s.it.rollCall == .opened && (s.vol i).expected))) && !(s.vol i).reported
    (s.hasPlace owner = true ↔
      s.it.entries.length + 1 + (List.range' 1 16).countP owed ≤ 24 ∧
        (console owner ∨ (s.it.entries.countP fun e => decide ¬ console e.owner) + 1 +
          ((List.range' 1 16).countP fun i => owed i && decide ¬ console i) ≤ 22))) ∧
  (∀ (s : State) (l : Link) (q : Request) (rest : List RxFrame) (n : Nat) (row : PtCfg) (kind : Kind),
      Taken s l q rest n row →
      q.code = reqAssert →
      kindOfCode q.fields.kind = some kind →
      checkFields row.role q.fields = none →
      s.findEntry n q.fields.tag = none →
      s.hasPlace n = true →
    ∃ t, exec (.assert l) s = .next t ∧
      (HeardOnly s t n row ∧ Signalled s t ∧ SameOutside [.pt, .it, .rr, .links] s t ∧
      match t.it.entries.getLast? with
      | none => False
      | some e =>
        t.it = { s.it with entries := s.it.entries ++ [e], nextSeq := if e.seq < 4294967295 then e.seq + 1 else 1 } ∧
        (∀ x ∈ s.it.entries, x.seq ≠ e.seq) ∧
        ((∀ x ∈ s.it.entries, x.seq ≠ s.it.nextSeq) → e.seq = s.it.nextSeq) ∧
        (let next := fun (i : Nat) => if i < 4294967295 then i + 1 else 1
         ∃ k ≤ s.it.entries.length, e.seq = Nat.repeat next k s.it.nextSeq ∧ ∀ j < k, ∃ x ∈ s.it.entries, x.seq = Nat.repeat next j s.it.nextSeq) ∧ e.owner = n ∧ e.tag = q.byte 2 ∧ e.kind = kind ∧ e.orphaned = false ∧
        (kind = .ramp → e.zone = .rear) ∧ (kind = .hold ∨ kind = .service → e.zone = .whole) ∧
        (kind = .kneel → some e.zone = zoneOfCode (q.byte 5)) ∧
        (kind = .door → e.zone = if row.door = some 1 ∨ row.door = some 2 then .front else .rear) ∧
        (e.effects.stopBrake = true ∧ ((mandatory kind).driveInhibit = true → e.effects.driveInhibit = true) ∧
          ((mandatory kind).keepLow = true → e.effects.keepLow = true)) ∧
        (∀ w, q.fields.effects = some w → e.effects = (mandatory kind).union w) ∧
        (q.fields.effects = none → e.effects = mandatory kind) ∧
        e.depth = (if kind = .kneel then some (max 30 (min 90 (q.byte 6))) else none) ∧
        e.opening = openingOfCode (q.byte 7) ∧
        e.state = (match s.grantFails kind e.zone with
          | none => .active
          | some r => .pending r) ∧
        Answered s t l rest [.entryState (s.summary e false) { NoticeCauses.none with creation := true, grant := e.state == .active }]
          { q.reply .done with
            marks := { (q.reply .done).marks with clamped := kind == .kneel && (decide (q.byte 6 < 30) || decide (90 < q.byte 6)) }
            tail := .summary (s.summary e false) }))

/-- An ASSERT whose fields fail a check is refused for the first that fails. One that passes them and names a tag
its owner holds is refused DUPLICATE while the entry is not orphaned; an orphaned entry is adopted in its place:
it is no longer orphaned and keeps its key, number, kind, zone and state and its mandatory effects; the optional
effects become those the request names, the depth of a KNEEL entry the clamped figure carried and the opening of
a DOOR or RAMP entry the one carried, but for the driver console, which removes optional effects and changes a
depth only at standstill and adds no effect; what is carried and not changeable is named in the kept set, effect
by effect and with depths compared after the clamp (log entry 19). The reply is marked adopted, with the kept
set and the summary. A new entry without a place is refused TABLE_FULL. That a reply without a summary carries
no tag is the model's choice (log entry 43). Only LIST frames carry the last-frame mark: the model's choice (log
entry 47). The changes and inputs kept for those still to take them are the model's own lists (log entry 7). -/
def Obligations.AssertIsRefusedOrAdopts : Prop :=
  (∀ (console still : Bool) (f : EntryFields) (e : Entry),
    let o := optionals e.kind
    let wears := e.kind = .door ∨ e.kind = .ramp
    let held := e.effects.inter o
    let named := f.effects.getD .none
    let wish := named.inter o
    let got := if console = false then wish else if still = true then held.inter wish else held
    let figure := f.depth.map fun d => max 30 (min 90 d)
    let deep := e.kind = .kneel ∧ (console = false ∨ still = true ∨ figure = e.depth)
    let spoken := openingOfCode f.opening
    adoptEntry console still f e = {
      entry := { e with
        orphaned := false
        effects := (mandatory e.kind).union got
        depth := if f.depth.isSome = true ∧ deep then figure else e.depth
        opening := if wears ∧ spoken.isSome = true then spoken else e.opening }
      kept := { kind := decide (f.kind ≠ 0 ∧ f.kind ≠ codeOfKind e.kind),
                zone := decide (f.kind = 3 ∧ f.zone ≠ 0 ∧ f.zone ≠ codeOfZone e.zone),
                effects := decide (got ≠ wish ∨ named.diff ((mandatory e.kind).union o) ≠ .none),
                depth := decide (f.depth.isSome = true ∧ ¬ deep),
                opening := decide (spoken.isSome = true ∧ ¬ wears) }
      clamped := decide (f.depth.isSome = true ∧ deep ∧ figure ≠ f.depth) }) ∧
  (∀ (s : State) (l : Link) (q : Request) (rest : List RxFrame) (n : Nat) (row : PtCfg) (why : RefusalReason),
      Taken s l q rest n row →
      q.code = reqAssert →
      checkFields row.role q.fields = some why →
    ∃ t, exec (.assert l) s = .next t ∧
      (RefusedFor s t l q rest n row why)) ∧
  (∀ (s : State) (l : Link) (q : Request) (rest : List RxFrame) (n : Nat) (row : PtCfg) (e : Entry),
      Taken s l q rest n row →
      q.code = reqAssert →
      checkFields row.role q.fields = none →
      s.findEntry n q.fields.tag = some e →
      e.orphaned = false →
    ∃ t, exec (.assert l) s = .next t ∧
      (RefusedFor s t l q rest n row .duplicate)) ∧
  (∀ (s : State) (l : Link) (q : Request) (rest : List RxFrame) (n : Nat) (row : PtCfg),
      Taken s l q rest n row →
      q.code = reqAssert →
      checkFields row.role q.fields = none →
      s.findEntry n q.fields.tag = none →
      s.hasPlace n = false →
    ∃ t, exec (.assert l) s = .next t ∧
      (RefusedFor s t l q rest n row .tableFull)) ∧
  (∀ (s : State) (l : Link) (q : Request) (rest : List RxFrame) (n : Nat) (row : PtCfg) (e : Entry),
      Taken s l q rest n row →
      KeysDistinct s →
      q.code = reqAssert →
      checkFields row.role q.fields = none →
      s.findEntry n q.fields.tag = some e →
      e.orphaned = true →
    ∃ t, exec (.assert l) s = .next t ∧
      (HeardOnly s t n row ∧ Signalled s t ∧ SameOutside [.pt, .it, .rr, .links] s t ∧
      let m := adoptEntry (row.role == .driverConsole) (s.motion.speedState == .standstill) q.fields e
      let a := m.entry
      a.orphaned = false ∧ a.owner = e.owner ∧ a.tag = e.tag ∧ a.seq = e.seq ∧ a.kind = e.kind ∧ a.zone = e.zone ∧
      a.state = e.state ∧ ((mandatory e.kind).stopBrake = true → a.effects.stopBrake = true) ∧
      ((mandatory e.kind).driveInhibit = true → a.effects.driveInhibit = true) ∧
      ((mandatory e.kind).keepLow = true → a.effects.keepLow = true) ∧
      t.it = { s.it with entries := s.it.entries.map fun x => if x = e then a else x } ∧
      Answered s t l rest [.entryState (s.summary a false) { NoticeCauses.none with
          adoption := true, fieldChange := a.effects != e.effects || a.depth != e.depth || a.opening != e.opening }]
        { q.reply (if m.kept = .none then .done else .donePartly) with
          marks := { (q.reply .done).marks with clamped := m.clamped, adopted := true }
          kept := m.kept, tail := .summary (s.summary a false) }))

/-- An AMEND with a code outside its lists is refused BAD_FIELD, and one of a tag its sender holds no entry with, or
of tag 7, NO_ENTRY. It makes the optional effects those it carries, sets a carried depth of a KNEEL entry
clamped to 30 to 90 and a carried opening of a DOOR or RAMP entry; but for the driver console, which removes
optional effects and changes a depth only at standstill and adds no effect. Kind, zone, key, number, state and
orphaned flag stay. A field carried but not changeable is named in the kept set, and the reply is then
DONE_PARTLY. A notice is placed exactly when a field changed. That a tag above 7 is refused BAD_FIELD is log
entry 18; that effects are decided one by one and depths compared after the clamp is log entry 19. That a reply
without a summary carries no tag is the model's choice (log entry 43). Only LIST frames carry the last-frame
mark: the model's choice (log entry 47). The changes and inputs kept for those still to take them are the
model's own lists (log entry 7). -/
def Obligations.AmendChangesWhatItMay : Prop :=
  (∀ (s : State) (l : Link) (q : Request) (rest : List RxFrame) (n : Nat) (row : PtCfg),
      Taken s l q rest n row →
      q.code = reqAmend →
      7 < q.byte 2 ∨ 5 < q.byte 3 ∨ 3 < q.byte 5 ∨ 3 < q.byte 7 →
    ∃ t, exec (.amend l) s = .next t ∧
      (RefusedFor s t l q rest n row .badField)) ∧
  (∀ (s : State) (l : Link) (q : Request) (rest : List RxFrame) (n : Nat) (row : PtCfg),
      Taken s l q rest n row →
      q.code = reqAmend →
      q.byte 2 ≤ 7 ∧ q.byte 3 ≤ 5 ∧ q.byte 5 ≤ 3 ∧ q.byte 7 ≤ 3 →
      q.byte 2 = 7 ∨ s.findEntry n (q.byte 2) = none →
    ∃ t, exec (.amend l) s = .next t ∧
      (RefusedFor s t l q rest n row .noEntry)) ∧
  (∀ (s : State) (l : Link) (q : Request) (rest : List RxFrame) (n : Nat) (row : PtCfg) (e : Entry),
      Taken s l q rest n row →
      KeysDistinct s →
      q.code = reqAmend →
      q.byte 2 ≤ 6 ∧ q.byte 3 ≤ 5 ∧ q.byte 5 ≤ 3 ∧ q.byte 7 ≤ 3 →
      s.findEntry n (q.byte 2) = some e →
    ∃ t, exec (.amend l) s = .next t ∧
      (HeardOnly s t n row ∧ SameOutside [.pt, .it, .rr, .links] s t ∧
      let o := optionals e.kind
      let wears := e.kind = .door ∨ e.kind = .ramp
      let free := row.role ≠ .driverConsole
      let still := s.motion.speedState = .standstill
      let held := e.effects.inter o
      let wish := (q.fields.effects.getD e.effects).inter o
      let got := if free then wish else if still then held.inter wish else held
      let figure := some (max 30 (min 90 (q.byte 6)))
      let deep := e.kind = .kneel ∧ (free ∨ still ∨ e.depth = figure)
      let carried := q.fields.depth.isSome = true
      let a : Entry := { e with
        effects := (mandatory e.kind).union got
        depth := if carried ∧ deep then figure else e.depth
        opening := if wears ∧ q.byte 7 ≠ 0 then openingOfCode (q.byte 7) else e.opening }
      let k : KeptSet :=
        { kind := decide (q.byte 3 ≠ 0 ∧ q.byte 3 ≠ codeOfKind e.kind)
          zone := decide (q.byte 5 ≠ 0 ∧ q.byte 5 ≠ codeOfZone e.zone)
          effects := decide (got ≠ wish ∨ ((q.fields.effects.getD .none).diff ((mandatory e.kind).union o)) ≠ .none)
          depth := decide (carried ∧ ¬ deep)
          opening := decide (q.byte 7 ≠ 0 ∧ ¬ wears) }
      let changed := a.effects ≠ e.effects ∨ a.depth ≠ e.depth ∨ a.opening ≠ e.opening
      t.it = { s.it with entries := s.it.entries.map fun x => if x = e then a else x } ∧
      (if changed then Signalled s t else t.rr = s.rr) ∧
      Answered s t l rest (if changed then [.entryState (s.summary a false) { NoticeCauses.none with fieldChange := true }] else [])
        { q.reply (if k = .none then .done else .donePartly) with
          marks := { (q.reply .done).marks with clamped := decide (carried ∧ deep ∧ (q.byte 6 < 30 ∨ 90 < q.byte 6)) }
          kept := k, tail := .summary (s.summary a false) }))

/-- RELEASE of a tag its sender holds no entry with, or of tag 7, is refused NO_ENTRY; of an entry whose opening is
OPENING or OPEN DOOR_OPEN with its summary; otherwise the entry leaves the table and the reply is DONE with its
summary as retired. RELEASE_ALL retires every entry of its sender with tags 0 to 6 that is not open, each with
its notice in table order, and answers the counts retired and stayed, DONE when none stayed. That a reply
without a summary carries no tag is the model's choice (log entry 43). Only LIST frames carry the last-frame
mark: the model's choice (log entry 47). The changes and inputs kept for those still to take them are the
model's own lists (log entry 7). -/
def Obligations.ReleaseRetiresClosedEntries : Prop :=
  (∀ (s : State) (l : Link) (q : Request) (rest : List RxFrame) (n : Nat) (row : PtCfg),
      Taken s l q rest n row →
      q.code = reqRelease →
      6 < q.byte 2 ∨ s.findEntry n (q.byte 2) = none →
    ∃ t, exec (.release l) s = .next t ∧
      (RefusedFor s t l q rest n row .noEntry)) ∧
  (∀ (s : State) (l : Link) (q : Request) (rest : List RxFrame) (n : Nat) (row : PtCfg) (e : Entry),
      Taken s l q rest n row →
      q.code = reqRelease →
      q.byte 2 ≤ 6 →
      s.findEntry n (q.byte 2) = some e →
    ∃ t, exec (.release l) s = .next t ∧
      (HeardOnly s t n row ∧
      if e.opening = some .opening ∨ e.opening = some .opened then
        SameOutside [.pt, .links] s t ∧
          Answered s t l rest [] { q.reply (.refused .doorOpen) with tail := .summary (s.summary e false) }
      else
        SameOutside [.pt, .it, .rr, .links] s t ∧ Signalled s t ∧
          t.it = { s.it with entries := s.it.entries.filter fun x => !(x.owner == n && x.tag == q.byte 2) } ∧
          Answered s t l rest [.entryState (s.summary e true) { NoticeCauses.none with retirement := true }]
            { q.reply .done with tail := .summary (s.summary e true) })) ∧
  (∀ (s : State) (l : Link) (q : Request) (rest : List RxFrame) (n : Nat) (row : PtCfg),
      Taken s l q rest n row →
      q.code = reqReleaseAll →
    ∃ t, exec (.releaseAll l) s = .next t ∧
      (let mine := fun (e : Entry) => e.owner == n && e.tag != 7
      let isUp := fun (e : Entry) => e.opening == some .opening || e.opening == some .opened
      let gone := s.it.entries.filter fun e => mine e && !isUp e
      let left := (s.it.entries.filter fun e => mine e && isUp e).length
      HeardOnly s t n row ∧ SameOutside [.pt, .it, .rr, .links] s t ∧ Signalled s t ∧
      t.it = { s.it with entries := s.it.entries.filter fun e => !(mine e && !isUp e) } ∧
      Answered s t l rest (gone.map fun e => .entryState (s.summary e true) { NoticeCauses.none with retirement := true })
        { q.reply (if left = 0 then .done else .donePartly) with tail := .releaseAll gone.length left }))

/-- A LOOKUP taken from a participant is refused BAD_FIELD when its tag code is above 7. Otherwise the reply is
DONE, with the summary of the sender's entry with that tag, its orphaned flag as it stands, or with the not-
found mark and no summary when there is none. Tag 7 returns the recovery entry. No entry changes, no notice is
placed and nothing is adopted. Whether the reply carries the last-frame mark is left open here (R194 does not
say); ListRepliesFrameByFrame states what the model does. That a reply without a summary carries no tag is the
model's choice (log entry 43). -/
def Obligations.LookupReadsOneEntry : Prop :=
  (∀ (s : State) (l : Link) (q : Request) (rest : List RxFrame) (n : Nat) (row : PtCfg),
      Taken s l q rest n row →
      q.code = reqLookup →
    ∃ t, exec (.lookup l) s = .next t ∧
      (let r := if 7 < q.byte 2 then q.reply (.refused .badField)
        else match s.it.entries.find? fun e => e.owner == n && e.tag == q.byte 2 with
          | some e => { q.reply .done with tail := .summary (s.summary e false) }
          | none => { q.reply .done with marks := { (q.reply .done).marks with notFound := true } }
      HeardOnly s t n row ∧ SameOutside [.pt, .links] s t ∧
      ∃ x ∈ [true, false], Answered s t l rest [] { r with marks := { r.marks with last := x } }))

/-- A PRESENCE taken from a participant makes it PRESENT with a deadline one lease ahead, also from SILENT, and is
answered DONE; every entry stays as it stands, orphaned ones orphaned, and nothing else changes. Any other
request taken hears its sender in the same way, as the statements of those requests say. Whether the reply
carries the last-frame mark is left open here (R194 does not say); ListRepliesFrameByFrame states what the model
does. -/
def Obligations.PresenceOnlyRenewsTheLease : Prop :=
  (∀ (s : State) (l : Link) (q : Request) (rest : List RxFrame) (n : Nat) (row : PtCfg),
      Taken s l q rest n row →
      q.code = reqPresence →
    ∃ t, exec (.presence l) s = .next t ∧
      (HeardOnly s t n row ∧ t.it = s.it ∧ SameOutside [.pt, .links] s t ∧
      ∃ x ∈ [true, false], Answered s t l rest [] { q.reply .done with marks := { (q.reply .done).marks with last := x } }))

/-- A LIST with a code outside its filters is refused BAD_FIELD. Otherwise the first frame of its reply carries the
first summary of the snapshot taken at that moment, or none when nothing matches, and a context keeps the rest;
the last frame is marked and carries the total. LIST_FRAME places the next frame when the reply queue of the
link has room, and ends the context with the last. On a link in BUS_OFF replies are discarded and no context
begins. That an owner node above 127 or an owner link above 1 is refused BAD_FIELD is log entry 18, and that a
frame is placed by its LIST_FRAME command while places are free is log entry 36. The replies of LOOKUP and
PRESENCE, one frame each, do not carry the last-frame mark. That a LIST taken in BUS_OFF drops its whole reply
at once is the model's choice (log entry 44). That a reply without a summary carries no tag is the model's
choice (log entry 43). Only LIST frames carry the last-frame mark: the model's choice (log entry 47). -/
def Obligations.ListRepliesFrameByFrame : Prop :=
  (∀ (s : State) (l : Link) (q : Request) (rest : List RxFrame) (n : Nat) (row : PtCfg),
      Taken s l q rest n row →
      q.code = reqList →
      5 < q.byte 3 ∨ 3 < q.byte 5 ∨ 127 < q.byte 6 ∨ (q.byte 6 ≠ 0 ∧ 1 < q.byte 7) →
    ∃ t, exec (.list l) s = .next t ∧
      (RefusedFor s t l q rest n row .badField)) ∧
  (∀ (s : State) (l : Link) (q : Request) (rest : List RxFrame) (n : Nat) (row : PtCfg),
      Taken s l q rest n row →
      q.code = reqList →
      ¬ (5 < q.byte 3 ∨ 3 < q.byte 5 ∨ 127 < q.byte 6 ∨ (q.byte 6 ≠ 0 ∧ 1 < q.byte 7)) →
    ∃ t, exec (.list l) s = .next t ∧
      (let found := (s.it.entries.filter fun e =>
        (q.byte 3 == 0 || q.byte 3 == codeOfKind e.kind) && (q.byte 5 == 0 || e.zone == .whole || q.byte 5 == codeOfZone e.zone) &&
        (q.byte 6 == 0 || (s.participant (if q.byte 7 = 0 then .chassis else .body) (q.byte 6)).map (·.1) == some e.owner)).map fun e => s.summary e false
      let last := decide (found.length ≤ 1)
      HeardOnly s t n row ∧ SameOutside [.pt, .links] s t ∧ (∀ m : Link, m ≠ l → t.link m = (s.link m).fill) ∧
      (t.link l).listCtx = (if last ∨ (s.link l).isOff = true then none else some { dest := q.source, ref := q.ref, total := found.length, rest := found.tail }) ∧
      { t.link l with listCtx := none } = ((LinkRec.placeReply { q.reply .done with
          marks := { (q.reply .done).marks with last := last }
          total := if last then found.length else 0
          tail := match found.head? with
            | some e => .summary e
            | none => .none } { s.link l with rx := rest, listCtx := none })).fill)) ∧
  (∀ (s : State) (l : Link) (c : ListCtx) (e : Summary) (more : List Summary),
      s.service = .inService →
      (s.link l).listCtx = some c →
      c.rest = e :: more →
      (s.link l).replies.length < 8 →
    ∃ t, exec (.listFrame l) s = .next t ∧
      (SameOutside [.links] s t ∧ (∀ m : Link, m ≠ l → t.link m = (s.link m).fill) ∧
      t.link l = (LinkRec.placeReply { replyTo c.dest reqList c.ref .done with
          marks := { (replyTo c.dest reqList c.ref .done).marks with last := more.isEmpty }
          total := if more.isEmpty then c.total else 0
          tail := .summary e } { s.link l with listCtx := if more.isEmpty then none else some { c with rest := more } }).fill)) ∧
  (∀ (s : State) (l : Link) (q : Request) (rest : List RxFrame) (n : Nat) (row : PtCfg),
      Taken s l q rest n row →
      q.code = reqLookup →
    ∃ t, exec (.lookup l) s = .next t ∧
      (HeardOnly s t n row ∧ SameOutside [.pt, .links] s t ∧
      Answered s t l rest []
        (if 7 < q.byte 2 then q.reply (.refused .badField)
        else match s.it.entries.find? fun e => e.owner == n && e.tag == q.byte 2 with
          | some e => { q.reply .done with tail := .summary (s.summary e false) }
          | none => { q.reply .done with marks := { (q.reply .done).marks with notFound := true } }))) ∧
  (∀ (s : State) (l : Link) (q : Request) (rest : List RxFrame) (n : Nat) (row : PtCfg),
      Taken s l q rest n row →
      q.code = reqPresence →
    ∃ t, exec (.presence l) s = .next t ∧
      (HeardOnly s t n row ∧ SameOutside [.pt, .links] s t ∧ Answered s t l rest [] (q.reply .done)))

/-- REPORT_BEGIN with a count of 1 to 7 starts a context, above 7 is refused BAD_FIELD. A context that stood is
abandoned and answered INVALID with the abandoned mark. With count 0 it completes at once: the participant is
reported and each of its entries is retired, or left orphaned when open; the reply names the tags that stayed,
each change has its notice, and the abandonment reply of an old context follows if there is room. REPORT_ENTRY
without a context is refused INVALID; a frame before the last is staged under its tag, the later frame of a tag
winning. The last frame completes: the context ends and the participant is reported; its entries that are not
staged, the recovery entry among them, are retired, or orphaned when open; each staged entry that passes the
checks adopts the entry of its tag in its place, or is created at the end with the fields of an ASSERT; one that
fails is counted; other owners' entries stay. The reply carries the counts refused and kept, the tags that
stayed and the clamped mark, with the code and reference of the completing frame (log entry 13), and is DONE
only when all are empty; one notice is placed for each entry changed and each created. A creation without a
place is refused and counted, the rest still taken. Numbers of created entries are stated for a counter that has
not returned. Model choices (log entries 18, 19, 20, 20, 43 and 47 in turn): effects not carried are none, the
rights of an adoption, no notice for an adoption that changes nothing of an entry not orphaned, those of
creations last, no tag outside a summary, no last-frame mark. REPORT_GAP_EXPIRY ends a context 200 ms after its
latest frame and, with room for the reply, answers INVALID with the abandoned mark, with code and reference of
the latest frame (log entry 13); entries stay. That an expiry moves the clock to its moment is the model's own
(log entry 1). The changes and inputs kept for those still to take them are the model's own lists (log entry 7). -/
def Obligations.ReportIsStagedAndCompletes : Prop :=
  (∀ (s : State) (l : Link) (q : Request) (rest : List RxFrame) (n : Nat) (row : PtCfg),
      Taken s l q rest n row →
      q.code = reqReportBegin →
      7 < q.byte 2 →
    ∃ t, exec (.reportBegin l) s = .next t ∧
      (RefusedFor s t l q rest n row .badField)) ∧
  (∀ (s : State) (l : Link) (q : Request) (rest : List RxFrame) (n : Nat) (row : PtCfg),
      Taken s l q rest n row →
      q.code = reqReportBegin →
      1 ≤ q.byte 2 →
      q.byte 2 ≤ 7 →
    ∃ t, exec (.reportBegin l) s = .next t ∧
      (t.pt = setNth s.pt n (fun v => { v with
        presence := .present, deadline := some (s.now + row.lease)
        report := some { expected := q.byte 2, received := 0, staged := [], lastFrame := s.now, code := q.code, ref := q.ref } }) ∧
      (let own := match (s.vol n).report with
         | none => { s.link l with rx := rest }
         | some c => LinkRec.placeReply { replyTo row.node c.code c.ref (.refused .invalid) with
          marks := { (replyTo row.node c.code c.ref (.refused .invalid)).marks with abandoned := true } } { s.link l with rx := rest }
       t.link l = own.fill ∧ ∀ m : Link, m ≠ l → t.link m = (s.link m).fill) ∧
      SameOutside [.pt, .links] s t)) ∧
  (∀ (s : State) (l : Link) (q : Request) (rest : List RxFrame) (n : Nat) (row : PtCfg),
      Taken s l q rest n row →
      q.code = reqReportBegin →
      q.byte 2 = 0 →
    ∃ t, exec (.reportBegin l) s = .next t ∧
      (t.pt = setNth s.pt n (fun v => { v with presence := .present, deadline := some (s.now + row.lease), report := none, reported := true }) ∧
      t.it = { s.it with entries := s.it.entries.filterMap fun e =>
        if e.owner ≠ n then some e
        else if e.opening = some .opening ∨ e.opening = some .opened then some { e with orphaned := true } else none } ∧
      Signalled s t ∧ SameOutside [.pt, .it, .rr, .links] s t ∧
      (KeysDistinct s →
        let isUp := fun (e : Entry) => e.opening == some .opening || e.opening == some .opened
        let left := (s.it.entries.filter fun e => e.owner == n && e.tag != 7 && isUp e).map Entry.tag
        let ns := s.it.entries.filterMap fun e =>
          if e.owner ≠ n then none
          else if isUp e = false then some (Notice.entryState (s.summary e true) { NoticeCauses.none with retirement := true })
          else if e.orphaned = true then none
          else some (.entryState (s.summary { e with orphaned := true } false) { NoticeCauses.none with orphaning := true })
        let one := (placed ns { s.link l with rx := rest }).placeReply
          { q.reply (if left = [] then .done else .donePartly) with tail := .report 0 0 left }
        let two := match (s.vol n).report with
          | none => one
          | some c => if one.replies.length < 8 then one.placeReply { replyTo row.node c.code c.ref (.refused .invalid) with
          marks := { (replyTo row.node c.code c.ref (.refused .invalid)).marks with abandoned := true } }
            else one
        t.link l = two.fill ∧ ∀ m : Link, m ≠ l → t.link m = (placed ns (s.link m)).fill))) ∧
  (∀ (s : State) (l : Link) (q : Request) (rest : List RxFrame) (n : Nat) (row : PtCfg),
      Taken s l q rest n row →
      q.code = reqReportEntry →
      (s.vol n).report = none →
    ∃ t, exec (.reportEntry l) s = .next t ∧
      (RefusedFor s t l q rest n row .invalid)) ∧
  (∀ (s : State) (l : Link) (q : Request) (rest : List RxFrame) (n : Nat) (row : PtCfg) (c : ReportCtx),
      Taken s l q rest n row →
      q.code = reqReportEntry →
      (s.vol n).report = some c →
      c.received + 1 < c.expected →
    ∃ t, exec (.reportEntry l) s = .next t ∧
      (t.pt = setNth s.pt n (fun v => { v with
        presence := .present, deadline := some (s.now + row.lease)
        report := some { c with
          received := c.received + 1, lastFrame := s.now, code := q.code, ref := q.ref
          staged := (c.staged.filter fun x => x.tag != q.byte 2) ++ [q.fields] } }) ∧
      t.link l = { s.link l with rx := rest }.fill ∧ (∀ m : Link, m ≠ l → t.link m = (s.link m).fill) ∧ SameOutside [.pt, .links] s t)) ∧
  (∀ (s : State) (l : Link) (q : Request) (rest : List RxFrame) (n : Nat) (row : PtCfg) (c : ReportCtx),
      Taken s l q rest n row →
      q.code = reqReportEntry →
      (s.vol n).report = some c →
      c.expected ≤ c.received + 1 →
    ∃ t, exec (.reportEntry l) s = .next t ∧
      (t.pt = setNth s.pt n (fun v => { v with presence := .present, deadline := some (s.now + row.lease), report := none, reported := true }) ∧
      (t.it.entries.filter fun e => e.owner ≠ n) = (s.it.entries.filter fun e => e.owner ≠ n) ∧
      (∀ e ∈ t.it.entries, e.owner = n → e.tag ≠ 7 →
        (((c.staged.filter fun x => x.tag != q.byte 2) ++ [q.fields]).any fun f => f.tag == e.tag) = true ∨ e.orphaned = true) ∧
      Signalled s t ∧ SameOutside [.pt, .it, .rr, .links] s t ∧
      (let staged := (c.staged.filter fun x => x.tag != q.byte 2) ++ [q.fields]
       let isUp := fun (e : Entry) => e.opening == some .opening || e.opening == some .opened
       let named := fun (e : Entry) => if e.tag = 7 then none else staged.find? fun f => f.tag == e.tag
       let pass := fun (f : EntryFields) => checkFields row.role f == none
       let adopt := fun (f : EntryFields) (e : Entry) => adoptEntry (row.role == .driverConsole) (s.motion.speedState == .standstill) f e
       let after := fun (e : Entry) =>
         if e.owner ≠ n then some e
         else match named e with
           | some f => if pass f then some (adopt f e).entry else some e
           | none => if isUp e then some { e with orphaned := true } else none
       let old := s.it.entries.filterMap after
       let fresh := staged.filter fun f => pass f && !(s.it.entries.any fun e => e.owner == n && e.tag == f.tag)
       let made := t.it.entries.drop old.length
       let entryOf := fun (f : EntryFields) =>
         let kind := (kindOfCode f.kind).getD .hold
         let zone := if kind = .kneel then (zoneOfCode f.zone).getD .whole
           else if kind = .ramp then .rear
           else if kind = .door then (if row.door = some 1 ∨ row.door = some 2 then .front else .rear)
           else .whole
         ({ owner := n, tag := f.tag, kind := kind, zone := zone
            effects := (mandatory kind).union ((optionals kind).inter (f.effects.getD .none))
            state := match s.grantFails kind zone with
              | none => .active
              | some r => .pending r
            orphaned := false, depth := if kind = .kneel then f.depth.map (fun d => max 30 (min 90 d)) else none
            opening := if kind = .door ∨ kind = .ramp then openingOfCode f.opening else none, seq := 0 } : Entry)
       let others := (old.countP fun e => !s.isConsole e.owner) + t.placesOwedOthers
       let room := min (24 - (old.length + t.placesOwed)) (if s.isConsole n then 24 else 22 - others)
       let taken := fresh.take room
       let adopted := s.it.entries.filterMap fun e => if e.owner ≠ n then none else match named e with
         | some f => if pass f then some (adopt f e) else none
         | none => none
       let refused := (staged.filter fun f => !pass f).length + (fresh.length - room)
       let kept := (adopted.filter fun a => a.kept != .none).length
       let left := (s.it.entries.filter fun e => e.owner == n && e.tag != 7 && (named e).isNone && isUp e).map Entry.tag
       let clamped := (adopted.any fun a => a.clamped) ||
         taken.any fun f => f.kind == 3 && (f.depth.map fun d => max 30 (min 90 d)) != f.depth
       let ns := (s.it.entries.filterMap fun e =>
           match after e with
           | none => some (Notice.entryState (s.summary e true) { NoticeCauses.none with retirement := true })
           | some a =>
             let diff := a.effects != e.effects || a.depth != e.depth || a.opening != e.opening
             let took := e.owner == n && (named e).any pass && (e.orphaned || diff)
             let lost := a.orphaned && !e.orphaned
             if took || lost then
               some (.entryState (s.summary a false) { NoticeCauses.none with fieldChange := diff, orphaning := lost, adoption := took })
             else none) ++
         made.map fun e => .entryState (s.summary e false) { NoticeCauses.none with creation := true, grant := e.state == .active }
       KeysDistinct s → (staged.Pairwise fun f g => f.tag ≠ g.tag) →
         t.it.entries.take old.length = old ∧
         made.map (fun e => { e with seq := 0 }) = taken.map entryOf ∧
         ((∀ x ∈ s.it.entries, x.seq < s.it.nextSeq) → s.it.nextSeq + taken.length ≤ 4294967295 →
           made.map Entry.seq = List.range' s.it.nextSeq taken.length) ∧
         (old.length ≤ 24 → (made.Pairwise fun a b => a.seq ≠ b.seq) ∧ ∀ e ∈ made, ∀ x ∈ old, x.seq ≠ e.seq) ∧
         (Answered s t l rest ns { q.reply (if refused = 0 ∧ kept = 0 ∧ left = [] then .done else .donePartly) with
             marks := { (q.reply .done).marks with clamped := clamped }, tail := .report refused kept left })))) ∧
  (∀ (s : State) (n : Nat) (row : PtCfg) (c : ReportCtx),
      s.service = .inService →
      s.cfg.row n = some row →
      (s.vol n).report = some c →
    ∃ t, exec (.reportGapExpiry n) s = .next t ∧
      (t.now = max s.now (c.lastFrame + 200) ∧ t.pt = setNth s.pt n (fun v => { v with report := none }) ∧
      (let r := replyTo row.node c.code c.ref (.refused .invalid)
       t.link row.link = (if (s.link row.link).replies.length < 8 then
           (s.link row.link).placeReply { r with marks := { r.marks with abandoned := true } } else s.link row.link).fill) ∧
      (∀ m : Link, m ≠ row.link → t.link m = (s.link m).fill) ∧ SameOutside [.now, .pt, .links] s t))

/-- From the console or the service tool: form (a) at standstill with the hold ESTABLISHED retires the orphaned
entry it names by link, node and tag, marked not-closed when it was open, and is otherwise refused NO_ENTRY;
without standstill and hold it is refused NOT_STANDSTILL. Form (b) sets the override flag of a zone that is
STUCK_LOW and is otherwise refused NO_ENTRY; a zone code other than FRONT and REAR is refused BAD_FIELD. From
another role every form is refused ROLE, and a form code outside 1 to 4 BAD_FIELD. That an OVERRIDE whose form
names none is refused by whichever command of the four comes first is log entry 17. That a reply without a
summary carries no tag is the model's choice (log entry 43). Only LIST frames carry the last-frame mark: the
model's choice (log entry 47). The changes and inputs kept for those still to take them are the model's own
lists (log entry 7). -/
def Obligations.OverrideClearsAnOrphanAndAZone : Prop :=
  (∀ (s : State) (l : Link) (q : Request) (rest : List RxFrame) (n : Nat) (row : PtCfg) (own : Link) (m : Nat) (orow : PtCfg) (e : Entry),
      Taken s l q rest n row →
      q.code = reqOverride →
      q.byte 2 = 1 →
      row.role = .driverConsole ∨ row.role = .serviceTool →
      linkOfByte (q.byte 7) = some own →
      s.motion.speedState = .standstill →
      s.shc.state = .established →
      s.participant own (q.byte 6) = some (m, orow) →
      s.findEntry m (q.byte 3) = some e →
      e.orphaned = true →
    ∃ t, exec (.overrideOrphan l) s = .next t ∧
      (HeardOnly s t n row ∧ SameOutside [.pt, .it, .rr, .links] s t ∧ Signalled s t ∧
      t.it = { s.it with entries := s.it.entries.filter fun x => !(x.owner == m && x.tag == q.byte 3) } ∧
      Answered s t l rest [.entryState (s.summary e true) { NoticeCauses.none with retirement := true }]
        { q.reply .done with
          marks := { (q.reply .done).marks with notClosed := e.opening == some .opening || e.opening == some .opened }
          tail := .summary (s.summary e true) })) ∧
  (∀ (s : State) (l : Link) (q : Request) (rest : List RxFrame) (n : Nat) (row : PtCfg),
      Taken s l q rest n row →
      q.code = reqOverride →
      q.byte 2 = 1 →
      row.role = .driverConsole ∨ row.role = .serviceTool →
      q.byte 7 ≤ 1 →
      s.motion.speedState ≠ .standstill ∨ s.shc.state ≠ .established →
    ∃ t, exec (.overrideOrphan l) s = .next t ∧
      (RefusedFor s t l q rest n row .notStandstill)) ∧
  (∀ (s : State) (l : Link) (q : Request) (rest : List RxFrame) (n : Nat) (row : PtCfg) (z : Zone),
      Taken s l q rest n row →
      q.code = reqOverride →
      q.byte 2 = 2 →
      row.role = .driverConsole ∨ row.role = .serviceTool →
      q.byte 5 = (match z with | .front => 1 | .rear => 2) →
    ∃ t, exec (.overrideZone l) s = .next t ∧
      (if (s.zone z).state = .stuckLow then
        HeardOnly s t n row ∧ SameOutside [.pt, .lu, .rr, .links] s t ∧ Signalled s t ∧ t.lu = s.lu.setZone z { s.zone z with override := true } ∧
          Answered s t l rest [] (q.reply .done)
      else RefusedFor s t l q rest n row .noEntry)) ∧
  (∀ (s : State) (l : Link) (q : Request) (rest : List RxFrame) (n : Nat) (row : PtCfg),
      Taken s l q rest n row →
      q.code = reqOverride →
      q.byte 2 = 2 →
      row.role = .driverConsole ∨ row.role = .serviceTool →
      q.byte 5 ≠ 1 →
      q.byte 5 ≠ 2 →
    ∃ t, exec (.overrideZone l) s = .next t ∧
      (RefusedFor s t l q rest n row .badField)) ∧
  (∀ (s : State) (l : Link) (q : Request) (rest : List RxFrame) (n : Nat) (row : PtCfg) (p : Instr × (Request → Bool)),
      Taken s l q rest n row →
      p ∈ [((.overrideOrphan l : Instr), isOverride 1), (.overrideZone l, isOverride 2), (.overrideRollCall l, isOverride 3), (.overrideAcknowledge l, isOverride 4)] →
      p.2 q = true →
      row.role ≠ .driverConsole →
      row.role ≠ .serviceTool →
    ∃ t, exec p.1 s = .next t ∧
      (RefusedFor s t l q rest n row .role)) ∧
  (∀ (s : State) (l : Link) (q : Request) (rest : List RxFrame) (n : Nat) (row : PtCfg) (p : Instr × (Request → Bool)),
      Taken s l q rest n row →
      p ∈ [((.overrideOrphan l : Instr), isOverride 1), (.overrideZone l, isOverride 2), (.overrideRollCall l, isOverride 3), (.overrideAcknowledge l, isOverride 4)] →
      p.2 q = true →
      row.role = .driverConsole ∨ row.role = .serviceTool →
      q.byte 2 = 0 ∨ 4 < q.byte 2 →
    ∃ t, exec p.1 s = .next t ∧
      (RefusedFor s t l q rest n row .badField)) ∧
  (∀ (s : State) (l : Link) (q : Request) (rest : List RxFrame) (n : Nat) (row : PtCfg),
      Taken s l q rest n row →
      q.code = reqOverride →
      q.byte 2 = 1 →
      row.role = .driverConsole ∨ row.role = .serviceTool →
      1 < q.byte 7 →
    ∃ t, exec (.overrideOrphan l) s = .next t ∧
      (RefusedFor s t l q rest n row .badField)) ∧
  (∀ (s : State) (l : Link) (q : Request) (rest : List RxFrame) (n : Nat) (row : PtCfg) (own : Link),
      Taken s l q rest n row →
      q.code = reqOverride →
      q.byte 2 = 1 →
      row.role = .driverConsole ∨ row.role = .serviceTool →
      linkOfByte (q.byte 7) = some own →
      s.motion.speedState = .standstill →
      s.shc.state = .established →
      s.orphanNamed own (q.byte 6) (q.byte 3) = none →
    ∃ t, exec (.overrideOrphan l) s = .next t ∧
      (RefusedFor s t l q rest n row .noEntry))

/-- A form (d) of the console or the service tool clears the RED latch when door at speed, creep at ceiling, a long
hold fault and a tag fault are all absent from the inputs the resolver has taken, and leaves it set otherwise;
the published record and the telltale then follow the latch, and no entry changes. The reply is DONE when RED is
off, and DONE_PARTLY with the set of conditions in force when it stays on; a record that is published by it is
placed on both links after the reply. Stated for states whose line and telltales hold the commands of the
published record. That the record is recomputed within the acknowledgement is log entry 8. That the restraint
notice of the acknowledgement takes its slot before the reply does is the model's choice (log entry 48). Only
LIST frames carry the last-frame mark: the model's choice (log entry 47). The changes and inputs kept for those
still to take them are the model's own lists (log entry 7). -/
def Obligations.AcknowledgementClearsRed : Prop :=
  (∀ (s : State) (l : Link) (q : Request) (rest : List RxFrame) (n : Nat) (row : PtCfg),
      Taken s l q rest n row →
      LineFollowsRecord s →
      q.code = reqOverride →
      q.byte 2 = 4 →
      row.role = .driverConsole ∨ row.role = .serviceTool →
    ∃ t, exec (.overrideAcknowledge l) s = .next t ∧
      (let v := s.rr.view
      let door := doorAfter v s.rr.doorAtSpeed
      let stands := door || v.ceiling || s.rr.holdFaultLong || v.tagFault
      let reply := { q.reply (if stands then .donePartly else .done) with
        tail := if stands then .redConditions door v.ceiling s.rr.holdFaultLong v.tagFault else .none }
      HeardOnly s t n row ∧ SameOutside [.pt, .rr, .act, .links] s t ∧ t.rr.redLatch = stands ∧ t.rr.view = v ∧ t.rr.due = s.rr.due ∧
      t.act.red.command = some (if stands then .on else .off) ∧
      match t.rr.published with
      | none => False
      | some r => FieldsFollow v r ∧ (r.amber = true ↔ AmberHolds v) ∧ r.doorAtSpeed = door ∧ r.red = stands ∧
        (if s.rr.published = some r then t.rr.count = s.rr.count ∧ Answered s t l rest [] reply
        else t.rr.repeatTimer = some (s.now + 1000) ∧
          (s.rr.published.isSome = true → t.rr.count = (s.rr.count + 1) % 256) ∧
          t.link l = ((LinkRec.placeReply reply { s.link l with rx := rest }).placeRestraint (.restraint r t.rr.count)).fill ∧
          ∀ m : Link, m ≠ l → t.link m = ((s.link m).placeRestraint (.restraint r t.rr.count)).fill)))

/-- A SET_RIDE_LEVEL of the console or the service tool with NORMAL is done at any speed, with RAISED while the
record is FRESH with speed at most 200, else refused MOVING; another level is refused BAD_FIELD. A changed level
is held with cause REQUEST, each corner whose zone is not LOWERING or DOWN takes the new ride-level target, and
the persistence time of each RIDE corner stands at its end of 2000 ms. Where a zone arrives at it and so changes
whether it holds a FAILED corner, every entry stands as an examination leaves it, with its notices where one
zone alone has changed. That a level already held changes nothing, its cause included, is the model's reading
(DEDUCED, log entry 21). That it stands there also for a corner that has not yet had its first period in RIDE is
the model's choice (log entry 52). Only LIST frames carry the last-frame mark: the model's choice (log entry
47). The changes and inputs kept for those still to take them are the model's own lists (log entry 7). -/
def Obligations.RideLevelIsSet : Prop :=
  (∀ (s : State) (l : Link) (q : Request) (rest : List RxFrame) (n : Nat) (row : PtCfg) (v : RideLevel),
      Taken s l q rest n row →
      q.code = reqSetRideLevel →
      row.role = .driverConsole ∨ row.role = .serviceTool →
      q.byte 2 = (match v with | .normal => 1 | .raised => 2) →
      v = .normal ∨ (s.motion.freshness = .fresh ∧ s.motion.speed ≤ 200) →
    ∃ t, exec (.setRideLevel l) s = .next t ∧
      (HeardOnly s t n row ∧ SameOutside [.draws, .pt, .lu, .act, .au, .it, .rr, .links] s t ∧ (∀ z : Zone, (∀ y : Zone, y ≠ z → t.lu.zoneFailed y = s.lu.zoneFailed y) →
        let u := if t.lu.zoneFailed z = s.lu.zoneFailed z then s else reexamine { s with lu := t.lu }
        t.it = u.it ∧ t.link l = (LinkRec.placeReply (q.reply .done) { u.link l with rx := rest }).fill ∧
          ∀ m : Link, m ≠ l → t.link m = (u.link m).fill) ∧
      ((∃ z : Zone, t.lu.zoneFailed z ≠ s.lu.zoneFailed z) → ∀ e ∈ t.it.entries,
        e.state = .active ∨ (t.grantFails e.kind e.zone).map EntryState.pending = some e.state) ∧ t.lu.ride = v ∧
      (v = s.lu.ride → t.lu = s.lu ∧ t.act = s.act ∧ t.au = s.au ∧ t.rr = s.rr) ∧
      (v ≠ s.lu.ride → t.lu.cause = .request ∧ SignalledInTurn s.rr t ∧
        ((∃ z : Zone, t.lu.zoneFailed z = s.lu.zoneFailed z) → Signalled s t) ∧ ∀ k : Corner,
        ((s.corner k).mode = .ride → (t.corner k).mode = .ride → (t.corner k).persist = 2000) ∧
        (t.corner k).target = (if (s.zone (zoneOf k)).state = .lowering ∨ (s.zone (zoneOf k)).state = .down
          then (if doorSide k then -((s.zone (zoneOf k)).target : Int) else rdiv (-((s.zone (zoneOf k)).target : Int)) 4)
          else match (v : RideLevel) with
            | .normal => 0
            | .raised => 60)))) ∧
  (∀ (s : State) (l : Link) (q : Request) (rest : List RxFrame) (n : Nat) (row : PtCfg),
      Taken s l q rest n row →
      q.code = reqSetRideLevel →
      row.role = .driverConsole ∨ row.role = .serviceTool →
      q.byte 2 = 2 →
      s.motion.freshness ≠ .fresh ∨ 200 < s.motion.speed →
    ∃ t, exec (.setRideLevel l) s = .next t ∧
      (RefusedFor s t l q rest n row .moving)) ∧
  (∀ (s : State) (l : Link) (q : Request) (rest : List RxFrame) (n : Nat) (row : PtCfg),
      Taken s l q rest n row →
      q.code = reqSetRideLevel →
      row.role = .driverConsole ∨ row.role = .serviceTool →
      q.byte 2 ≠ 1 →
      q.byte 2 ≠ 2 →
    ∃ t, exec (.setRideLevel l) s = .next t ∧
      (RefusedFor s t l q rest n row .badField))

/-- A CONFIG_WRITE of the service tool is refused BAD_FIELD for an index that names no parameter, LOCKED for group A
under the commissioning lock, NOT_STANDSTILL away from standstill, and LOCKED for group B without an ACTIVE
SERVICE entry that carries LEVEL_FREEZE, in that order; otherwise the signed value is staged under its index in
place of an earlier one. CONFIG_DISCARD empties the staging copy. Neither changes the configuration in force.
Both are refused ROLE to others. Only LIST frames carry the last-frame mark: the model's choice (log entry 47). -/
def Obligations.ConfigurationIsStaged : Prop :=
  (∀ (s : State) (l : Link) (q : Request) (rest : List RxFrame) (n : Nat) (row : PtCfg),
      Taken s l q rest n row →
      q.code = reqConfigWrite →
      row.role = .serviceTool →
    ∃ t, exec (.configWrite l) s = .next t ∧
      (let i := q.byte 2 * 256 + q.byte 3
      let v := q.byte 4 * 256 + q.byte 5
      if i ∉ allIndexes then RefusedFor s t l q rest n row .badField
      else if i / 4096 = 1 ∧ s.cfg.lock = true then RefusedFor s t l q rest n row .locked
      else if s.motion.speedState ≠ .standstill then RefusedFor s t l q rest n row .notStandstill
      else if i / 4096 = 2 ∧ (s.it.entries.any fun e => e.kind == .service && e.state == .active && e.effects.levelFreeze) = false then RefusedFor s t l q rest n row .locked
      else HeardOnly s t n row ∧ SameOutside [.pt, .store, .links] s t ∧ Answered s t l rest [] (q.reply .done) ∧
        t.store = { s.store with staging := (s.store.staging.filter fun x => x.1 != i) ++
          [(i, if v < 32768 then (v : Int) else (v : Int) - 65536)] })) ∧
  (∀ (s : State) (l : Link) (q : Request) (rest : List RxFrame) (n : Nat) (row : PtCfg),
      Taken s l q rest n row →
      q.code = reqConfigDiscard →
      row.role = .serviceTool →
    ∃ t, exec (.configDiscard l) s = .next t ∧
      (HeardOnly s t n row ∧ SameOutside [.pt, .store, .links] s t ∧ Answered s t l rest [] (q.reply .done) ∧
      t.store = { s.store with staging := [] })) ∧
  (∀ (s : State) (l : Link) (q : Request) (rest : List RxFrame) (n : Nat) (row : PtCfg),
      Taken s l q rest n row →
      q.code = reqConfigWrite →
      row.role ≠ .serviceTool →
    ∃ t, exec (.configWrite l) s = .next t ∧
      (RefusedFor s t l q rest n row .role)) ∧
  (∀ (s : State) (l : Link) (q : Request) (rest : List RxFrame) (n : Nat) (row : PtCfg),
      Taken s l q rest n row →
      q.code = reqConfigDiscard →
      row.role ≠ .serviceTool →
    ∃ t, exec (.configDiscard l) s = .next t ∧
      (RefusedFor s t l q rest n row .role))

/-- The indexes that name parameters are those of the table of 11.6. The first parameter of the resulting
configuration that fails is the lowest whose value lies outside its range or at which a condition fails: a
threshold below p_max; B1 to B4, R3, R4, J, S, T, G and V fitted; a corner's channels fitted; no two in-use rows
with one link and node, one row for each role but doors, a role on its own link and a vehicle computer in use; a
door number exactly for door nodes and no two alike; a row that holds an entry or a context keeps its identity,
role and door; MOTION filters on the chassis link alone, lowest source at or below highest; each rising figure
above its falling one. A CONFIG_COMMIT of the service tool is refused NOT_STANDSTILL without standstill and an
ESTABLISHED hold, and LOCKED when its groups may not be committed. A resulting configuration with a parameter
that fails is refused INVALID with the first such index, which is kept, and stays staged. Otherwise the staged
values come into force together, the staging copy and refusal index are emptied and a bank write begins. A row
that comes into use, leaves it or changes its link, node id or role then begins ABSENT with no deadline and no
report context, not reported and not expected (that a role counts to the identity and that a row which leaves
use begins anew is log entry 24); every other row keeps its figures, the sender heard. A channel that the commit
leaves unfitted loses its raw count, state, value and timers, and keeps its flag (log entry 24); every other
channel stays. When the write is complete the written bank is current and the commit count has risen. Model
choices: the parameter at which each condition fails, and the conditions on rows and filters not in use (log
entry 23), and the codes of named values (log entry 25). Only LIST frames carry the last-frame mark: the model's
choice (log entry 47). The changes and inputs kept for those still to take them are the model's own lists (log
entry 7). -/
def Obligations.CommitAppliesAllOrNothing : Prop :=
  (allIndexes.Pairwise (fun i j => i < j) ∧ ∀ i : Nat,
    let g := i / 4096
    let r := i / 64 % 64
    let f := i % 64
    i ∈ allIndexes ↔ (g = 1 ∧ 1 ≤ f ∧ ((r = 0 ∧ f ≤ 3) ∨ (1 ≤ r ∧ r ≤ 4 ∧ f ≤ 5))) ∨
      (g = 2 ∧ 1 ≤ f ∧ ((1 ≤ r ∧ r ≤ 31 ∧ f ≤ 5) ∨ (41 ≤ r ∧ r ≤ 48 ∧ f ≤ 2))) ∨
      (g = 3 ∧ 1 ≤ f ∧ ((1 ≤ r ∧ r ≤ 16 ∧ f ≤ 7) ∨ (((21 ≤ r ∧ r ≤ 28) ∨ (31 ≤ r ∧ r ≤ 38)) ∧ f ≤ 4) ∨
        ((r = 40 ∨ r = 41) ∧ f ≤ 6) ∨ (r = 42 ∧ f ≤ 4) ∨ (r = 50 ∧ f ≤ 7)))) ∧
  (∀ s : State,
    let p := s.store.staging.foldl (fun p v => p.withValue v.1 v.2) s.cfg
    let ok := fun (i : Nat) =>
      let g := i / 4096
      let r := i / 64 % 64
      let f := i % 64
      let v : Int := match s.store.staging.find? (fun x => x.1 == i) with
        | some x => x.2
        | none => (s.cfg.value i).getD 0
      let bounds : Int × Int :=
        if g = 1 then
          if r = 0 then (if f = 1 then (600, 950) else if f = 2 then (400, 800) else (0, 1))
          else if f = 1 then (300, 900) else if f = 2 then (300, 2500) else if f = 3 then (10, 99) else if f = 4 then (0, 100)
          else (1000, 15000)
        else if g = 2 then
          if 31 < r then (1, 8)
          else if f = 2 then (-8192, 8191) else if f = 3 then (0, 4095) else if f = 4 then (900, 1100) else (0, 1)
        else if r ≤ 16 then
          if f = 2 then (1, 2) else if f = 3 then (1, 127) else if f = 4 then (1, 5) else if f = 5 then (0, 4)
          else if f = 6 then (100, 2000) else (0, 1)
        else if r ≤ 38 then (if f = 1 then (0, 1) else if f = 2 then (1, 2) else (1, 127))
        else if r = 40 then (0, 1000) else if r = 41 then (80, 530) else if r = 42 then (0, 300)
        else if f = 1 then (160, 205) else (0, 1250)
      let home := fun (x : Role) => if x = .vehicleComputer ∨ x = .serviceTool then Link.chassis else .body
      let below := fun (x : PtCfg → Bool) => (p.pt.take (r - 1)).any x
      let cond : Bool :=
        if g = 1 then r == 0 || f != 4 || (axleOfNumber r).all (fun a => decide ((p.axles.get a).threshold < p.pMax))
        else if g = 2 then
          if r ≤ 31 then f != 1 || decide (r < 17) || decide (27 < r) || (chanOfNumber r).all (fun c => (p.calib.get c).fitted)
          else (cornerOfNumber (r - 40)).all fun k =>
            if f = 1 then (p.calib.get (.h (p.cornerMap.get k).height)).fitted
            else (p.calib.get (.p (p.cornerMap.get k).pressure)).fitted
        else if r ≤ 16 then
          ((p.row r).all fun x =>
            if f = 3 then !(x.inUse && below fun y => y.inUse && y.link == x.link && y.node == x.node)
            else if f = 4 then
              x.link == home x.role && !(x.inUse && x.role != .doorNode && below fun y => y.inUse && y.role == x.role) &&
                (r != 16 || p.pt.any fun y => y.inUse && y.role == .vehicleComputer)
            else if f = 5 then
              (x.role == .doorNode) == x.door.isSome && !(x.role == .doorNode && below fun y => y.role == .doorNode && y.door == x.door)
            else true) &&
          ((s.cfg.row r).all fun was => (p.row r).all fun x =>
            let busy := s.it.entries.any (fun e => e.owner == r) || (s.vol r).report.isSome
            !(was.inUse && busy) || (if f = 1 then was.inUse == x.inUse else if f = 2 then was.link == x.link
              else if f = 3 then was.node == x.node else if f = 4 then was.role == x.role
              else if f = 5 then was.door.getD 0 == x.door.getD 0 else true))
        else if r ≤ 38 then
          (if r ≤ 28 then nth p.chassisFilters (r - 20) else nth p.bodyFilters (r - 30)).all fun x =>
            if f = 2 then decide (r ≤ 28) || x.type == .request else if f = 4 then decide (x.low ≤ x.high) else true
        else if r = 50 then
          (if f = 3 then decide (p.thr.holdFall < p.thr.holdRise) else if f = 5 then decide (p.thr.fillFall < p.thr.fillRise)
          else if f = 7 then decide (p.thr.riseFall < p.thr.riseRise) else true)
        else true
      bounds.1 ≤ v ∧ v ≤ bounds.2 ∧ (g = 3 → r ≤ 16 → f = 6 → v % 10 = 0) ∧
        (g = 3 → r = 50 → f = 1 → v = 160 ∨ v = 175 ∨ v = 190 ∨ v = 205) ∧ cond = true
    match s.firstInvalid with
    | none => ∀ i ∈ allIndexes, ok i
    | some i => i ∈ allIndexes ∧ ¬ ok i ∧ ∀ j ∈ allIndexes, j < i → ok j) ∧
  (∀ (s : State) (l : Link) (q : Request) (rest : List RxFrame) (n : Nat) (row : PtCfg),
      Taken s l q rest n row →
      q.code = reqConfigCommit →
      row.role = .serviceTool →
    ∃ t, exec (.configCommit l) s = .next t ∧
      (let groups := fun (g : Nat) => s.store.staging.any fun v => v.1 / 4096 == g
      if s.motion.speedState ≠ .standstill ∨ s.shc.state ≠ .established then RefusedFor s t l q rest n row .notStandstill
      else if (groups 2 = true ∧ (s.it.entries.any fun e => e.kind == .service && e.state == .active && e.effects.levelFreeze) = false) ∨ (groups 1 = true ∧ s.cfg.lock = true) then RefusedFor s t l q rest n row .locked
      else match s.firstInvalid with
        | some i => HeardOnly s t n row ∧ SameOutside [.pt, .store, .links] s t ∧ t.store = { s.store with refusal := some i } ∧
            Answered s t l rest [] { q.reply (.refused .invalid) with tail := .parameter i }
        | none => t.cfg = s.store.staging.foldl (fun p v => p.withValue v.1 v.2) s.cfg ∧
            t.store = { s.store with staging := [], refusal := none, writing := some t.cfg } ∧
            Answered s t l rest [] (q.reply .done) ∧ t.it = s.it ∧ Signalled s t ∧
            (s.pt.length = 16 → s.cfg.pt.length = 16 → t.pt.length = 16 ∧ ∀ i ∈ List.range' 1 16,
              let heard := if i = n then { s.vol i with presence := .present, deadline := some (s.now + row.lease) } else s.vol i
              let same := (s.cfg.row i).map PtCfg.inUse = (t.cfg.row i).map PtCfg.inUse ∧
                (s.cfg.row i).map PtCfg.link = (t.cfg.row i).map PtCfg.link ∧
                (s.cfg.row i).map PtCfg.node = (t.cfg.row i).map PtCfg.node ∧
                (s.cfg.row i).map PtCfg.role = (t.cfg.row i).map PtCfg.role
              t.vol i = if same then heard
                else { presence := .absent, deadline := none, report := none, reported := false, expected := false }) ∧
            (∀ c : Chan, t.chans.get c =
              if (s.cfg.calib.get c).fitted = true ∧ (t.cfg.calib.get c).fitted = false then
                { raw := 0, st := none, value := none, failTime := 0, recTime := 0, wasOut := (s.chans.get c).wasOut }
              else s.chans.get c) ∧
            SameOutside [.pt, .cfg, .store, .chans, .rr, .links] s t)) ∧
  (∀ (s : State) (p : Params),
      s.service = .inService →
      s.store.writing = some p →
    ∃ t, exec .bankWriteComplete s = .next t ∧
      (SameOutside [.store] s t ∧ t.store.current = p ∧ t.store.secondCurrent = !s.store.secondCurrent ∧
      t.store.commits = (s.store.commits + 1) % 65536 ∧ t.store.writing = none ∧ t.store.staging = s.store.staging ∧
      (if s.store.secondCurrent then t.store.bank2 = s.store.bank2 else t.store.bank1 = s.store.bank1)))

/-- A DIAGNOSTIC_QUERY of the service tool that names a measurement channel reports its record as it stands and,
when the channel is VALID, clears its was-out-of-range flag and that of every corner mapped to it; one that
names an actuator channel reports it; another number is refused BAD_FIELD. With the clear option the reset cause
record is cleared. Another participant is refused ROLE. A RESTART of another participant is refused ROLE;
without STANDSTILL and an ESTABLISHED hold it is refused NOT_STANDSTILL; otherwise it is answered DONE and the
commanded reset is due 100 ms later at the latest. Only LIST frames carry the last-frame mark: the model's
choice (log entry 47). -/
def Obligations.DiagnosticsAndRestart : Prop :=
  (∀ (s : State) (l : Link) (q : Request) (rest : List RxFrame) (n : Nat) (row : PtCfg) (c : Chan),
      Taken s l q rest n row →
      q.code = reqDiagnostic →
      row.role = .serviceTool →
      chanOfNumber (q.byte 2) = some c →
    ∃ t, exec (.diagnosticQuery l) s = .next t ∧
      (let ok := (s.chans.get c).st = some .valid
      HeardOnly s t n row ∧ SameOutside [.pt, .chans, .lu, .resetCause, .links] s t ∧
      Answered s t l rest [] { q.reply .done with tail := .channel (s.chans.get c) } ∧
      (∀ x : Chan, t.chans.get x = if x = c ∧ ok then { s.chans.get c with wasOut := false } else s.chans.get x) ∧
      (∀ k : Corner, t.corner k = if Chan.h (s.map.get k).height = c ∧ ok then { s.corner k with wasOut := false } else s.corner k) ∧
      (if q.byte 3 % 2 = 1 then t.resetCause = none ∧ t.resetCount = 0
        else t.resetCause = s.resetCause ∧ t.resetCount = s.resetCount))) ∧
  (∀ (s : State) (l : Link) (q : Request) (rest : List RxFrame) (n : Nat) (row : PtCfg) (r : ActReport),
      Taken s l q rest n row →
      q.code = reqDiagnostic →
      row.role = .serviceTool →
      31 < q.byte 2 →
      s.actReport (q.byte 2 - 31) = some r →
    ∃ t, exec (.diagnosticQuery l) s = .next t ∧
      (HeardOnly s t n row ∧ SameOutside [.pt, .resetCause, .links] s t ∧ Answered s t l rest [] { q.reply .done with tail := .actuator r } ∧
      (if q.byte 3 % 2 = 1 then t.resetCause = none ∧ t.resetCount = 0
        else t.resetCause = s.resetCause ∧ t.resetCount = s.resetCount))) ∧
  (∀ (s : State) (l : Link) (q : Request) (rest : List RxFrame) (n : Nat) (row : PtCfg),
      Taken s l q rest n row →
      q.code = reqDiagnostic →
      row.role = .serviceTool →
      q.byte 2 = 0 ∨ 51 < q.byte 2 →
    ∃ t, exec (.diagnosticQuery l) s = .next t ∧
      (RefusedFor s t l q rest n row .badField)) ∧
  (∀ (s : State) (l : Link) (q : Request) (rest : List RxFrame) (n : Nat) (row : PtCfg),
      Taken s l q rest n row →
      q.code = reqDiagnostic →
      row.role ≠ .serviceTool →
    ∃ t, exec (.diagnosticQuery l) s = .next t ∧
      (RefusedFor s t l q rest n row .role)) ∧
  (∀ (s : State) (l : Link) (q : Request) (rest : List RxFrame) (n : Nat) (row : PtCfg),
      Taken s l q rest n row →
      q.code = reqRestart →
    ∃ t, exec (.restart l) s = .next t ∧
      (if row.role ≠ .serviceTool then RefusedFor s t l q rest n row .role
      else if s.motion.speedState ≠ .standstill ∨ s.shc.state ≠ .established then RefusedFor s t l q rest n row .notStandstill
      else HeardOnly s t n row ∧ SameOutside [.pt, .restart, .links] s t ∧ Answered s t l rest [] (q.reply .done) ∧
        t.restart = some { due := s.now + 100, replySent := false }))

/-- RECEIVE_FRAME on a link in BUS_OFF changes nothing. Otherwise the receive error count falls by 1 to at least 0;
that it does so also for a frame to another destination is the model's choice (log entry 35). A frame to node 0
of type 1 or 16 with 8 bytes whose source passes an in-use filter of the link for its type, a motion frame only
on the chassis link from the vehicle computer and a request only with a known code, takes a free one of the two
buffers behind those already held, or is counted as lost to overrun when none is free; any other frame is not
buffered. A frame the part sends carries the class, type, destination and page of its type from node 0, and its
bytes as 11.5 lays them out: 8 of a restraint notice or a ROLL_CALL notice, 12 of an entry-state notice, 16 of a
reply or a status page. What a page or a channel report holds is given as figures, since 11.5 does not place it
in its bytes (log entry 26). That a reply without a summary carries no tag, and that bytes to which R194 gives
no content are 0, are the model's choices (log entries 43 and 51). -/
def Obligations.ReceivedFrameIsFilteredAndBuffered : Prop :=
  (∀ (s : State) (i : TxItem),
    let b := fun (n : Nat) => BitVec.ofNat 8 n
    let bit := fun (x : Bool) => if x = true then 1 else 0
    let id := fun (cls type dest page : Nat) => BitVec.ofNat 29 (cls * 2 ^ 27 + type * 2 ^ 21 + dest * 2 ^ 14 + page)
    let sum := fun (x : Summary) =>
      [ b (x.seq / 16777216), b (x.seq / 65536), b (x.seq / 256), b x.seq,
        b ((if x.link = .body then 128 else 0) + x.node), b (x.tag + 8 * codeOfKind x.kind + 64 * codeOfZone x.zone),
        b (bit x.effects.stopBrake + 2 * bit x.effects.driveInhibit + 4 * bit x.effects.keepLow + 8 * bit x.effects.levelFreeze +
          16 * bit x.effects.tagCentre + 32 * bit (x.state == .active) + 64 * bit x.orphaned + 128 * bit x.retired),
        b (codeOfOpening x.opening + 4 * codeOfReason x.state), b (x.depth.getD 0) ]
    let head := fun (r : Reply) => [ b r.request, b r.ref,
      b (if r.code = .done then 0 else if r.code = .donePartly then 1 else 2),
      b (match r.code with
        | .refused x => codeOfRefusal x
        | _ => 0),
      b (bit r.marks.clamped + 2 * bit r.marks.adopted + 4 * bit r.marks.notClosed + 8 * bit r.marks.notFound +
        16 * bit r.marks.alreadyClosed + 32 * bit r.marks.abandoned + 64 * bit r.marks.last +
        128 * (match r.tail with
          | .summary _ => 1
          | _ => 0)),
      b (bit r.kept.kind + 2 * bit r.kept.zone + 4 * bit r.kept.effects + 8 * bit r.kept.depth + 16 * bit r.kept.opening), b r.total ]
    s.frameOf i = match i with
    | .restraint r n =>
      let lim := match r.speedLimit with
        | none => 255
        | some v => v / 10
      let word := r.torque + 1024 * (bit r.red + 2 * bit r.kinds.door + 4 * bit r.kinds.ramp + 8 * bit r.kinds.kneel +
        16 * bit r.kinds.hold + 32 * bit r.kinds.service)
      { ident := id 0 32 0 0, length := 8, body := .bytes [ b n,
          b (bit r.holdRequested + 2 * bit r.driveInhibit + 4 * bit r.keepLowFront + 8 * bit r.keepLowRear +
            16 * bit r.levelFreeze + 32 * bit r.tagCentre + 64 * bit r.doorAtSpeed + 128 * bit r.amber),
          b r.depthFront, b r.depthRear, b lim, b (word / 256), b word,
          b (bit r.conds.rollCall + 2 * bit r.conds.kneelZone + 4 * bit r.conds.stopHold + 8 * bit r.conds.zoneOverride +
            16 * bit r.conds.jointFailed + 32 * bit r.conds.tagFault + 64 * bit r.conds.foldLimit) ] }
    | .reply r => { ident := id 1 17 r.dest 0, length := 16, body := match r.tail with
        | .none => .bytes (head r ++ List.replicate 9 0)
        | .summary x => .bytes (head r ++ sum x)
        | .releaseAll x y => .bytes (head r ++ [b x, b y] ++ List.replicate 7 0)
        | .report x y tags => .bytes (head r ++ [b x, b y,
            b ((List.range 8).map fun j => if j ∈ tags then 2 ^ j else 0).sum] ++ List.replicate 6 0)
        | .redConditions w x y z => .bytes (head r ++ [b (bit w + 2 * bit x + 4 * bit y + 8 * bit z)] ++ List.replicate 8 0)
        | .parameter j => .bytes (head r ++ [b (j / 256), b j] ++ List.replicate 7 0)
        | .channel x => .diagnostic (head r) (.channel x)
        | .actuator x => .diagnostic (head r) (.actuator x) }
    | .notice (.entryState x c) => { ident := id 2 33 0 0, length := 12, body := .bytes (sum x ++
        [b (bit c.creation + 2 * bit c.grant + 4 * bit c.pendingReason + 8 * bit c.fieldChange + 16 * bit c.orphaning +
          32 * bit c.adoption + 64 * bit c.retirement), 0, 0]) }
    | .notice (.rollCall w n) => { ident := id 2 34 0 0, length := 8, body := .bytes ([b (w / 256), b w, b n] ++ List.replicate 5 0) }
    | .status p => { ident := id 3 48 0 p, length := 16, body := .status (s.statusPage p) }) ∧
  ([Kind.door, .ramp, .kneel, .hold, .service].map codeOfKind = [1, 2, 3, 4, 5] ∧
    [EntryZone.front, .rear, .whole].map codeOfZone = [1, 2, 3] ∧
    [none, some .closed, some .opening, some .opened].map codeOfOpening = [0, 1, 2, 3] ∧
    [EntryState.active, .pending .notStandstill, .pending .holdNotEstablished, .pending .airReserve, .pending .zoneFailed,
      .pending .rollCall].map codeOfReason = [0, 1, 2, 3, 4, 5] ∧
    [RefusalReason.notParticipant, .role, .tableFull, .duplicate, .noEntry, .doorOpen, .moving, .badField, .notStandstill,
      .locked, .invalid].map codeOfRefusal = [1, 2, 3, 4, 5, 6, 7, 8, 9, 10, 11]) ∧
  (∀ (s : State) (l : Link) (f : BusFrame),
      s.service = .inService →
    ∃ t, exec (.receiveFrame l f) s = .next t ∧
      (let src := sourceOf f.ident
      let pass := fun (ty : FilterType) => (s.cfg.filters l).any fun x => x.inUse && x.type == ty && decide (x.low ≤ src) && decide (src ≤ x.high)
      let vc := s.cfg.pt.any fun r => r.inUse && r.role == .vehicleComputer && r.node == src
      let base := { s.link l with rxErrors := (s.link l).rxErrors - 1 }
      let take := fun (ty : FilterType) => if (s.link l).rx.length < 2 then { base with rx := (s.link l).rx ++ [⟨ty, src, f.data⟩] }
        else { base with overruns := min 65535 ((s.link l).overruns + 1) }
      let code := byteAt f.data 0
      SameOutside [.links] s t ∧ (∀ m : Link, m ≠ l → t.link m = s.link m) ∧
      t.link l =
        (if (s.link l).isOff then s.link l
        else if destOf f.ident ≠ 0 ∨ f.data.length ≠ 8 then base
        else if typeOf f.ident = 1 then (if l = .chassis ∧ pass .motion = true ∧ vc = true then take .motion else base)
        else if typeOf f.ident = 16 then
          (if pass .request = true ∧ ((1 ≤ code ∧ code ≤ 11) ∨ (16 ≤ code ∧ code ≤ 20)) then take .request else base)
        else base)))

/-- The free slots of a link are filled in order of index from the replies, then the notices, then the due pages:
those displaced from a slot first, the earliest taken before the others, then the page next in turn, whose
placing alone advances the page count. A restraint notice replaces one that waits in a slot, else takes the free
slot of lowest index (the model's choice, log entry 37), else displaces the waiting item of the highest class,
the highest index among equals, which returns to the front of its source, a page to its turn; with no slot that
waits it is not placed. A notice replaces one with its subject in the list, else in a slot that waits, keeping
the causes; else it joins the end of the list of 32, from which the oldest is then removed and counted.
FRAME_TRANSMITTED on a link with a frame in transmission, or one its controller offers at that moment (log entry
6), ends it: the transmit error count falls by 1, the slot is freed and the free slots are filled again, a LIST
frame that waits takes a place that thereby comes free in the reply queue, and the other link's queues are
unchanged but for that filling; the frame last sent is the model's own field (log entry 28). A RESTART's reply
sent on the chassis link is noted. STATUS_PAGE_TIMER makes the page next in turn due on each link not in BUS_OFF
with none due (a page in a slot is not due, log entry 38), and runs again for 50 ms. That an expiry moves the
clock to its moment is the model's own (log entry 1). -/
def Obligations.SentFrameFreesItsSlot : Prop :=
  (∀ l : LinkRec,
    let n := (slotsOf l).countP Slot.isFree
    let src := l.replies.map TxItem.reply ++ l.notices.map TxItem.notice ++ 
      l.returned.map TxItem.status ++ (if l.due = true then [.status l.nextPage] else [])
    let m := n - l.replies.length
    let k := m - l.notices.length
    if l.isOff = true then l.fill = l
    else slotsOf l.fill = filledFrom (slotsOf l) src ∧
      l.fill = { l with
        slot1 := l.fill.slot1, slot2 := l.fill.slot2, slot3 := l.fill.slot3
        replies := l.replies.drop n, notices := l.notices.drop m,
        returned := l.returned.drop k, due := l.due && decide (k ≤ l.returned.length)
        nextPage := if l.due = true ∧ l.returned.length < k then (l.nextPage + 1) % 15 else l.nextPage }) ∧
  (∀ (l : LinkRec) (i : TxItem),
    let R := l.placeRestraint i
    let cls := fun (x : TxItem) => match x with
      | .restraint _ _ => 0
      | .reply _ => 1
      | .notice _ => 2
      | .status _ => 3
    let age := fun (p : Nat) => (l.nextPage + 14 - p) % 15
    let holds := fun (x : Slot) => match x with
      | .waiting (.restraint _ _) => true
      | _ => false
    let waits := fun (x : Slot) => match x with
      | .waiting _ => true
      | _ => false
    let only := fun (j : Nat) (base : LinkRec) => slotsOf R = (slotsOf l).set j (.waiting i) ∧
      R = { base with slot1 := R.slot1, slot2 := R.slot2, slot3 := R.slot3 }
    if l.isOff = true then R = l
    else if (slotsOf l).any holds = true then
      ∃ j ∈ [0, 1, 2], holds ((slotsOf l).getD j .free) = true ∧ (∀ h ∈ [0, 1, 2], h < j → holds ((slotsOf l).getD h .free) = false) ∧ only j l
    else if Slot.free ∈ slotsOf l then
      ∃ j ∈ [0, 1, 2], (slotsOf l).getD j .free = .free ∧ (∀ h ∈ [0, 1, 2], h < j → (slotsOf l).getD h .free ≠ .free) ∧ only j l
    else if (slotsOf l).any waits = true then
      ∃ j ∈ [0, 1, 2], match (slotsOf l).getD j .free with
        | .waiting x =>
          (∀ h ∈ [0, 1, 2], match (slotsOf l).getD h .free with
            | .waiting y => cls y < cls x ∨ (cls y = cls x ∧ h ≤ j)
            | _ => True) ∧
          only j (match x with
            | .reply r => { l with replies := (r :: l.replies).take 8 }
            | .notice n => { l with
                notices := (n :: l.notices).take 32
                lost := if l.notices.length < 32 then l.lost else if l.lost < 255 then l.lost + 1 else 255 }
            | .status p => { l with returned := l.returned.takeWhile (fun y => decide (age p ≤ age y)) ++
                p :: l.returned.dropWhile (fun y => decide (age p ≤ age y)) }
            | .restraint _ _ => l)
        | _ => False
    else R = l) ∧
  (∀ (l : LinkRec) (x : Notice),
    let R := l.placeNotice x
    let same := fun (y : Notice) => match x, y with
      | .entryState a _, .entryState b _ => a.seq == b.seq
      | .rollCall _ _, .rollCall _ _ => true
      | _, _ => false
    let merged := fun (y : Notice) => match x, y with
      | .entryState a c, .entryState _ d => Notice.entryState a {
          creation := c.creation || d.creation, grant := c.grant || d.grant, pendingReason := c.pendingReason || d.pendingReason
          fieldChange := c.fieldChange || d.fieldChange, orphaning := c.orphaning || d.orphaning
          adoption := c.adoption || d.adoption, retirement := c.retirement || d.retirement }
      | _, _ => x
    let meets := fun (y : Slot) => match y with
      | .waiting (.notice z) => same z
      | _ => false
    if l.isOff = true then R = l
    else if l.notices.any same = true then R = { l with notices := l.notices.map fun y => if same y then merged y else y }
    else if (slotsOf l).any meets = true then
      ∃ j ∈ [0, 1, 2], (∀ h ∈ [0, 1, 2], h < j → meets ((slotsOf l).getD h .free) = false) ∧
        match (slotsOf l).getD j .free with
        | .waiting (.notice y) => same y = true ∧ slotsOf R = (slotsOf l).set j (.waiting (.notice (merged y))) ∧
            R = { l with slot1 := R.slot1, slot2 := R.slot2, slot3 := R.slot3 }
        | _ => False
    else if l.notices.length < 32 then R = { l with notices := l.notices ++ [x] }
    else R = { l with notices := l.notices.drop 1 ++ [x], lost := if l.lost < 255 then l.lost + 1 else 255 }) ∧
  (∀ (s : State) (l : Link) (i : TxItem),
      s.service = .inService →
      (s.link l).offer.sending = some i →
    ∃ t, exec (.frameTransmitted l) s = .next t ∧
      (let done := fun (x : Slot) => match x with
        | .sending _ => Slot.free
        | y => y
      let r := (s.link l).offer
      let f := LinkRec.fill { r with
        slot1 := done r.slot1, slot2 := done r.slot2, slot3 := done r.slot3, txErrors := r.txErrors - 1, lastSent := some i }
      let came := f.replies.length < r.replies.length
      t.link l = (match r.listCtx with
        | none => f
        | some c => match c.rest with
          | [] => if came then LinkRec.fill { f with listCtx := none } else f
          | e :: more => if came ∧ f.replies.length < 8 then (LinkRec.placeReply { replyTo c.dest reqList c.ref .done with
              marks := { (replyTo c.dest reqList c.ref .done).marks with last := more.isEmpty }
              total := if more.isEmpty then c.total else 0
              tail := .summary e } { f with listCtx := if more.isEmpty then none else some { c with rest := more } }).fill
            else if came then f.fill else f) ∧
      (∀ m : Link, m ≠ l → t.link m = (s.link m).fill) ∧ SameOutside [.restart, .links] s t ∧
      t.restart = (match s.restart, i with
        | some x, .reply y => if l = .chassis ∧ y.request = reqRestart ∧ y.code = .done then some { x with replySent := true } else some x
        | x, _ => x))) ∧
  (∀ (s : State) (d : Nat),
      s.service = .inService →
      s.pageTimer = some d →
    ∃ t, exec .statusPageTimer s = .next t ∧
      (t.now = max s.now d ∧ t.pageTimer = some (d + 50) ∧ SameOutside [.now, .pageTimer, .links] s t ∧
      ∀ l : Link, t.link l = (if (s.link l).isOff = true ∨ (s.link l).returned ≠ [] then s.link l
        else { s.link l with due := true }).fill))

/-- A transmit error in the frame in transmission or offered at that moment adds 8 to the transmit count with the
frame kept in transmission; past 255 the link is BUS_OFF, its slots, replies, notices, due pages and list
context emptied. A receive error adds 1 up to 255. BUS_OFF_RECOVERY with 127 occurrences of 11 recessive bits
counted is the 128th: the link is ERROR_ACTIVE with both counts 0; one that comes before is counted and the link
stays BUS_OFF. The link state is WARNING from 96, PASSIVE from 128 of either count. That a frame in transmission
is one the controller offers at that moment is log entry 6; that the transmit count is kept past 255 and that
the count of recessive occurrences stands at 128 at recovery, the earlier ones being counted with the clock and
by the command, is log entry 27. Each of the 15 status pages carries the figures that 11.5 lists for it, as they
stand when it is sent. That page 3 carries the readbacks of the line, the telltales and the spare, page 12 those
of TS and TL, the last forward limit and the model's own mark of the seeding, page 3 the model's own mark of the
first sample, and pages 5 and 6 the release request is the model's choice (log entry 45). -/
def Obligations.ErrorCountsLeadToBusOff : Prop :=
  (∀ s : State,
    let axle := fun (a : Axle) => ({
      record := s.bdu.axles.get a, release := (s.act.m.get a).release, driven := (s.act.m.get a).driven
      readback := if (s.act.m.get a).driven then (s.act.m.get a).command.map Int.ofNat else (s.chans.get (.b a)).value } : AxleStatus)
    let corner := fun (k : Corner) => ({
      record := s.corner k, reported := (s.corner k).filtered.map fun f => rdiv f 16, driven := (s.act.c.get k).driven
      readback := if (s.act.c.get k).driven then (s.act.c.get k).command.getD .hold else .hold
      heightState := (s.chans.get (.h (s.map.get k).height)).st } : CornerStatus)
    let zone := fun (z : Zone) => ({ record := s.zone z, remaining := (s.zone z).timer.map fun d => d - s.now } : ZoneStatus)
    let line := fun (r : LinkRec) => ({
      state := if 255 < r.txErrors then .busOff else if 128 ≤ r.txErrors ∨ 128 ≤ r.rxErrors then .passive
        else if 96 ≤ r.txErrors ∨ 96 ≤ r.rxErrors then .warning else .errorActive
      txErrors := r.txErrors, rxErrors := r.rxErrors, overruns := r.overruns, lost := r.lost } : LinkStatus)
    let current := fun (x y : ChanRec) => if x.st = some .valid ∧ x.value.isSome = true then x.value
      else if y.st = some .valid then y.value else none
    let bad := fun (c : Chan) => (s.cfg.calib.get c).fitted && ((s.chans.get c).st == some .held || (s.chans.get c).st == some .failed)
    let broken := allAxles.any (fun a => (s.act.m.get a).failed) || allCorners.any (fun k => (s.act.c.get k).failed) ||
      s.act.dp.failed || s.act.dn.failed || s.act.tl.failed
    s.statusPage 0 = .tables s.resetCause s.resetCount s.it.rollCall s.it.entries.length
      (s.it.entries.filter fun e => decide ((s.cfg.row e.owner).map PtCfg.role ≠ some .driverConsole)).length
      (s.it.entries.filter Entry.orphaned).length (s.it.entries.filter fun e => decide (e.state ≠ .active)).length
      s.store.refusal s.store.commits ∧
    (s.pt.length = 16 → s.cfg.pt.length = 16 → s.statusPage 1 = .participants
      (((List.range' 1 16).filter fun i => (s.cfg.row i).any PtCfg.inUse).map fun i => (i, (s.vol i).presence, (s.vol i).reported))) ∧
    s.statusPage 2 = .motion s.motion.freshness s.motion.speedState s.motion.speed s.motion.brake s.motion.accel s.motion.gear
      s.motion.refused s.motion.repeated ∧
    s.statusPage 3 = .supply s.sam s.cfg.thr.trip (s.cfg.thr.trip + 5) (s.sam.restoreTimer.map fun d => s.now + 200 - d)
      { channel := allChans.any bad || broken
        modulatorReleased := allAxles.any fun a => !(s.act.m.get a).driven
        supplyLow := s.sam.supplyLow, air := !(s.sam.holdOk && s.sam.fillOk && s.sam.riseReserve), creep := s.shc.creep
        kneelIncomplete := s.lu.front.incomplete || s.lu.rear.incomplete || s.lu.front.state == .stuckLow || s.lu.rear.state == .stuckLow
        orphaned := s.it.entries.any Entry.orphaned }
      s.rr.redLatch { doorAtSpeed := s.rr.doorAtSpeed, creepCeiling := s.rr.view.ceiling, holdFaultLong := s.rr.holdFaultLong
                      tagFault := s.rr.view.tagFault }
      (if s.act.line.driven then s.act.line.command.getD .asserted else .asserted)
      (if s.act.amber.driven then s.act.amber.command.getD .off else .off)
      (if s.act.red.driven then s.act.red.command.getD .off else .off) .off ∧
    s.statusPage 4 = .hold s.shc.state s.shc.target2 s.shc.target3 s.shc.target4 s.shc.creep s.shc.ceiling s.bdu.target s.bdu.bias ∧
    s.statusPage 5 = .axles (axle .a1) (axle .a2) ∧ s.statusPage 6 = .axles (axle .a3) (axle .a4) ∧
    s.statusPage 7 = .corners (corner .a1L) (corner .a1R) ∧ s.statusPage 8 = .corners (corner .a2L) (corner .a2R) ∧
    s.statusPage 9 = .corners (corner .a3L) (corner .a3R) ∧ s.statusPage 10 = .corners (corner .a4L) (corner .a4R) ∧
    s.statusPage 11 = .zones (zone .front) (zone .rear) s.lu.ride s.lu.cause s.lu.errorSum s.lu.levelFlag ∧
    s.statusPage 12 = .articulation s.au s.chans.t.value s.chans.t.st s.chans.s.value (current s.chans.d1 s.chans.d2)
      (current s.chans.d3 s.chans.d4) (if s.act.ts.driven then s.act.ts.command else s.chans.t.value)
      (if s.act.tl.driven = true ∧ s.act.tl.command = some .free then .free else .engaged) ∧
    s.statusPage 13 = .channels (allChans.map fun c => ((s.chans.get c).st, (s.chans.get c).wasOut)) ∧
    s.statusPage 14 = .links (line s.chassis) (line s.body)) ∧
  (∀ (s : State) (l : Link) (i : TxItem),
      s.service = .inService →
      (s.link l).offer.sending = some i →
    ∃ t, exec (.transmitError l) s = .next t ∧
      (let r := (s.link l).offer
      (∀ m : Link, m ≠ l → t.link m = s.link m) ∧ SameOutside [.links] s t ∧ (t.link l).txErrors = r.txErrors + 8 ∧
      (t.link l).rxErrors = r.rxErrors ∧ (t.link l).rx = r.rx ∧ (t.link l).overruns = r.overruns ∧ (t.link l).lost = r.lost ∧
      if r.txErrors + 8 ≤ 255 then t.link l = { r with txErrors := r.txErrors + 8 }
      else (t.link l).state = .busOff ∧ (t.link l).slot1 = .free ∧ (t.link l).slot2 = .free ∧ (t.link l).slot3 = .free ∧
        (t.link l).replies = [] ∧ (t.link l).notices = [] ∧ (t.link l).due = false ∧ (t.link l).returned = [] ∧ (t.link l).listCtx = none ∧
        (t.link l).recessive = 0)) ∧
  (∀ (s : State) (l : Link),
      s.service = .inService →
    ∃ t, exec (.receiveError l) s = .next t ∧
      ((∀ m : Link, m ≠ l → t.link m = s.link m) ∧ SameOutside [.links] s t ∧
      t.link l = (if (s.link l).state = .busOff then s.link l
        else { s.link l with rxErrors := if (s.link l).rxErrors < 255 then (s.link l).rxErrors + 1 else 255 }) ∧
      ((s.link l).txErrors < 96 → (s.link l).rxErrors = 95 → (t.link l).state = .warning) ∧
      ((s.link l).txErrors < 96 → (s.link l).rxErrors = 127 → (t.link l).state = .passive))) ∧
  (∀ (s : State) (l : Link),
      s.service = .inService →
      (s.link l).state = .busOff →
    ∃ t, exec (.busOffRecovery l) s = .next t ∧
      ((∀ m : Link, m ≠ l → t.link m = s.link m) ∧ SameOutside [.links] s t ∧
      (127 ≤ (s.link l).recessive → (t.link l).state = .errorActive ∧
        t.link l = { s.link l with txErrors := 0, rxErrors := 0, recessive := 128 }) ∧
      ((s.link l).recessive < 127 → (t.link l).state = .busOff ∧
        t.link l = { s.link l with recessive := (s.link l).recessive + 1 })))

end Statements
end

