-- ==== Sys2Proof/Laws/State.lean ====
section
/-! SUPPORT. The updates of State and of its tables: one lemma for each field an update touches or leaves. -/
namespace Sys2Proof.Machine

/-! ## Tables indexed by the manual's names -/

@[simp] theorem PerIdx.get_make {α : Type} (f : Idx8 → α) (i : Idx8) : (PerIdx.make f).get i = f i := by cases i <;> rfl
@[simp] theorem PerAxle.get_make {α : Type} (f : Axle → α) (a : Axle) : (PerAxle.make f).get a = f a := by cases a <;> rfl
@[simp] theorem PerCorner.get_make {α : Type} (f : Corner → α) (k : Corner) : (PerCorner.make f).get k = f k := by cases k <;> rfl
@[simp] theorem PerChan.get_make {α : Type} (f : Chan → α) (c : Chan) : (PerChan.make f).get c = f c := by
  cases c <;> simp [PerChan.make, PerChan.get]

@[simp] theorem PerIdx.get_set_self {α : Type} (t : PerIdx α) (i : Idx8) (x : α) : (t.set i x).get i = x := by cases i <;> rfl
@[simp] theorem PerAxle.get_set_self {α : Type} (t : PerAxle α) (a : Axle) (x : α) : (t.set a x).get a = x := by cases a <;> rfl
@[simp] theorem PerCorner.get_set_self {α : Type} (t : PerCorner α) (k : Corner) (x : α) : (t.set k x).get k = x := by
  cases k <;> rfl

theorem PerIdx.get_set_ne {α : Type} (t : PerIdx α) {i j : Idx8} (x : α) (h : j ≠ i) : (t.set i x).get j = t.get j := by
  cases i <;> cases j <;> first | rfl | exact absurd rfl h
theorem PerAxle.get_set_ne {α : Type} (t : PerAxle α) {a b : Axle} (x : α) (h : b ≠ a) : (t.set a x).get b = t.get b := by
  cases a <;> cases b <;> first | rfl | exact absurd rfl h
theorem PerCorner.get_set_ne {α : Type} (t : PerCorner α) {a b : Corner} (x : α) (h : b ≠ a) :
    (t.set a x).get b = t.get b := by
  cases a <;> cases b <;> first | rfl | exact absurd rfl h

@[simp] theorem PerChan.get_set_self {α : Type} (t : PerChan α) (c : Chan) (x : α) : (t.set c x).get c = x := by
  cases c <;> simp [PerChan.set, PerChan.get]
theorem PerChan.get_set_ne {α : Type} (t : PerChan α) {a b : Chan} (x : α) (h : b ≠ a) : (t.set a x).get b = t.get b := by
  cases a <;> cases b <;>
    simp_all [PerChan.set, PerChan.get, PerIdx.get_set_ne, PerAxle.get_set_ne]

/-- A table is determined by its entries. -/
theorem PerCorner.ext_get {α : Type} {t u : PerCorner α} (h : ∀ k, t.get k = u.get k) : t = u := by
  cases t; cases u
  have a := h .a1L; have b := h .a1R; have c := h .a2L; have d := h .a2R
  have e := h .a3L; have f := h .a3R; have g := h .a4L; have i := h .a4R
  simp only [PerCorner.get] at a b c d e f g i
  subst a b c d e f g i; rfl

theorem PerAxle.ext_get {α : Type} {t u : PerAxle α} (h : ∀ a, t.get a = u.get a) : t = u := by
  cases t; cases u
  have a := h .a1; have b := h .a2; have c := h .a3; have d := h .a4
  simp only [PerAxle.get] at a b c d
  subst a b c d; rfl

/-! ## Corners and zones -/

@[simp] theorem State.setCorner_corner_self (s : State) (k : Corner) (c : CornerRec) : (s.setCorner k c).corner k = c := by
  simp [State.setCorner, State.corner]
theorem State.setCorner_corner_ne (s : State) {k j : Corner} (c : CornerRec) (h : j ≠ k) :
    (s.setCorner k c).corner j = s.corner j := by
  simp [State.setCorner, State.corner, PerCorner.get_set_ne _ _ h]
theorem State.setCorner_corner (s : State) (k j : Corner) (c : CornerRec) :
    (s.setCorner k c).corner j = if j = k then c else s.corner j := by
  split
  · next h => subst h; simp
  · next h => exact s.setCorner_corner_ne c h
@[simp] theorem State.setCorner_levelFreeze (s : State) (k : Corner) (c : CornerRec) : (s.setCorner k c).levelFreeze = s.levelFreeze := rfl
@[simp] theorem State.setZone_levelFreeze (s : State) (z : Zone) (r : ZoneRec) : (s.setZone z r).levelFreeze = s.levelFreeze := rfl
@[simp] theorem State.commandValve_levelFreeze (s : State) (k : Corner) (v : Valve) : (s.commandValve k v).levelFreeze = s.levelFreeze := rfl
@[simp] theorem State.releaseValve_levelFreeze (s : State) (k : Corner) (r : Bool) : (s.releaseValve k r).levelFreeze = s.levelFreeze := rfl
@[simp] theorem State.setCorner_zone (s : State) (k : Corner) (c : CornerRec) (z : Zone) : (s.setCorner k c).zone z = s.zone z := rfl
@[simp] theorem State.setCorner_front (s : State) (k : Corner) (c : CornerRec) : (s.setCorner k c).lu.front = s.lu.front := rfl
@[simp] theorem State.setCorner_rear (s : State) (k : Corner) (c : CornerRec) : (s.setCorner k c).lu.rear = s.lu.rear := rfl
@[simp] theorem State.setCorner_freeze (s : State) (k : Corner) (c : CornerRec) : (s.setCorner k c).lu.freeze = s.lu.freeze := rfl
@[simp] theorem State.setCorner_ride (s : State) (k : Corner) (c : CornerRec) : (s.setCorner k c).lu.ride = s.lu.ride := rfl
@[simp] theorem State.setCorner_luZone (s : State) (k : Corner) (c : CornerRec) (z : Zone) : (s.setCorner k c).lu.zone z = s.lu.zone z := rfl
@[simp] theorem State.setCorner_act (s : State) (k : Corner) (c : CornerRec) : (s.setCorner k c).act = s.act := rfl
@[simp] theorem State.setCorner_chans (s : State) (k : Corner) (c : CornerRec) : (s.setCorner k c).chans = s.chans := rfl
@[simp] theorem State.setCorner_map (s : State) (k : Corner) (c : CornerRec) : (s.setCorner k c).map = s.map := rfl
@[simp] theorem State.setCorner_bdu (s : State) (k : Corner) (c : CornerRec) : (s.setCorner k c).bdu = s.bdu := rfl
@[simp] theorem State.setCorner_sam (s : State) (k : Corner) (c : CornerRec) : (s.setCorner k c).sam = s.sam := rfl
@[simp] theorem State.setCorner_motion (s : State) (k : Corner) (c : CornerRec) : (s.setCorner k c).motion = s.motion := rfl
@[simp] theorem State.setCorner_now (s : State) (k : Corner) (c : CornerRec) : (s.setCorner k c).now = s.now := rfl

@[simp] theorem State.setZone_zone_self (s : State) (z : Zone) (r : ZoneRec) : (s.setZone z r).zone z = r := by
  cases z <;> rfl
theorem State.setZone_zone_ne (s : State) {z y : Zone} (r : ZoneRec) (h : y ≠ z) : (s.setZone z r).zone y = s.zone y := by
  cases z <;> cases y <;> first | rfl | exact absurd rfl h
@[simp] theorem State.setZone_corner (s : State) (z : Zone) (r : ZoneRec) (k : Corner) : (s.setZone z r).corner k = s.corner k := by
  cases z <;> rfl
@[simp] theorem State.setZone_corners (s : State) (z : Zone) (r : ZoneRec) : (s.setZone z r).lu.corners = s.lu.corners := by
  cases z <;> rfl
@[simp] theorem State.setZone_freeze (s : State) (z : Zone) (r : ZoneRec) : (s.setZone z r).lu.freeze = s.lu.freeze := by
  cases z <;> rfl
@[simp] theorem State.setZone_ride (s : State) (z : Zone) (r : ZoneRec) : (s.setZone z r).lu.ride = s.lu.ride := by
  cases z <;> rfl
@[simp] theorem State.setZone_act (s : State) (z : Zone) (r : ZoneRec) : (s.setZone z r).act = s.act := rfl
@[simp] theorem State.setZone_now (s : State) (z : Zone) (r : ZoneRec) : (s.setZone z r).now = s.now := rfl
@[simp] theorem State.setZone_motion (s : State) (z : Zone) (r : ZoneRec) : (s.setZone z r).motion = s.motion := rfl
@[simp] theorem State.setZone_sam (s : State) (z : Zone) (r : ZoneRec) : (s.setZone z r).sam = s.sam := rfl
@[simp] theorem State.setZone_bdu (s : State) (z : Zone) (r : ZoneRec) : (s.setZone z r).bdu = s.bdu := rfl

@[simp] theorem State.commandValve_corner (s : State) (k j : Corner) (v : Valve) : (s.commandValve k v).corner j = s.corner j := rfl
@[simp] theorem State.commandValve_lu (s : State) (k : Corner) (v : Valve) : (s.commandValve k v).lu = s.lu := rfl
@[simp] theorem State.releaseValve_corner (s : State) (k j : Corner) (r : Bool) : (s.releaseValve k r).corner j = s.corner j := rfl
@[simp] theorem State.releaseValve_lu (s : State) (k : Corner) (r : Bool) : (s.releaseValve k r).lu = s.lu := rfl

@[simp] theorem withdraw_corner_self (why : HoldReason) (s : State) (k : Corner) :
    (withdraw why s k).corner k = { s.corner k with valve := .hold, reason := some why } := by
  simp [withdraw]
theorem withdraw_corner_ne (why : HoldReason) (s : State) {k j : Corner} (h : j ≠ k) :
    (withdraw why s k).corner j = s.corner j := by
  simp [withdraw, State.setCorner_corner_ne s _ h]

/-! ## Links and participants -/

@[simp] theorem State.onLink_link_self (s : State) (l : Link) (f : LinkRec → LinkRec) : (s.onLink l f).link l = f (s.link l) := by
  cases l <;> rfl
theorem State.onLink_link_ne (s : State) {l m : Link} (f : LinkRec → LinkRec) (h : m ≠ l) : (s.onLink l f).link m = s.link m := by
  cases l <;> cases m <;> first | rfl | exact absurd rfl h
@[simp] theorem State.onBoth_link (s : State) (f : LinkRec → LinkRec) (l : Link) : (s.onBoth f).link l = f (s.link l) := by
  cases l <;> rfl
@[simp] theorem State.updVol_pt (s : State) (n : Nat) (f : PtVol → PtVol) : (s.updVol n f).pt = setNth s.pt n f := rfl
@[simp] theorem State.withPending_pending (s : State) (q : List Instr) : (s.withPending q).pending = q := rfl

/-- Reading a row after one row has changed. -/
theorem nth_setNth_self {α : Type} (l : List α) (n : Nat) (f : α → α) : nth (setNth l n f) n = (nth l n).map f := by
  unfold nth setNth
  split
  · simp
  · simp
theorem nth_setNth_ne {α : Type} (l : List α) {n m : Nat} (f : α → α) (h : m ≠ n) : nth (setNth l n f) m = nth l m := by
  unfold nth setNth
  split
  · rfl
  · split
    · rfl
    · have e : n - 1 ≠ m - 1 := by omega
      simp [e]

/-! ## The events of a moment (R45, R74) -/

theorem rrNote_rr (s : State) : (rrNote s).rr =
    { s.rr with noted := if s.rrInputs = s.rr.latest then s.rr.noted else s.rr.noted ++ [s.rrInputs] } := by
  unfold rrNote; split <;> rfl
@[simp] theorem rrNote_now (s : State) : (rrNote s).now = s.now := by unfold rrNote; split <;> rfl
@[simp] theorem rrNote_draws (s : State) : (rrNote s).draws = s.draws := by unfold rrNote; split <;> rfl
@[simp] theorem rrNote_motion (s : State) : (rrNote s).motion = s.motion := by unfold rrNote; split <;> rfl
@[simp] theorem rrNote_it (s : State) : (rrNote s).it = s.it := by unfold rrNote; split <;> rfl
@[simp] theorem rrNote_pt (s : State) : (rrNote s).pt = s.pt := by unfold rrNote; split <;> rfl
@[simp] theorem rrNote_shc (s : State) : (rrNote s).shc = s.shc := by unfold rrNote; split <;> rfl
@[simp] theorem rrNote_lu (s : State) : (rrNote s).lu = s.lu := by unfold rrNote; split <;> rfl
@[simp] theorem rrNote_au (s : State) : (rrNote s).au = s.au := by unfold rrNote; split <;> rfl
@[simp] theorem rrNote_act (s : State) : (rrNote s).act = s.act := by unfold rrNote; split <;> rfl
@[simp] theorem rrNote_sam (s : State) : (rrNote s).sam = s.sam := by unfold rrNote; split <;> rfl
@[simp] theorem rrNote_chans (s : State) : (rrNote s).chans = s.chans := by unfold rrNote; split <;> rfl
@[simp] theorem rrNote_bdu (s : State) : (rrNote s).bdu = s.bdu := by unfold rrNote; split <;> rfl
@[simp] theorem rrNote_cfg (s : State) : (rrNote s).cfg = s.cfg := by unfold rrNote; split <;> rfl
@[simp] theorem rrNote_link (s : State) (l : Link) : (rrNote s).link l = s.link l := by
  unfold rrNote; split <;> cases l <;> rfl
@[simp] theorem rrNote_rrInputs (s : State) : (rrNote s).rrInputs = s.rrInputs := by unfold rrNote; split <;> rfl
@[simp] theorem rrNote_grantView (s : State) : (rrNote s).grantView = s.grantView := by unfold rrNote; split <;> rfl
@[simp] theorem rrNote_view (s : State) : (rrNote s).rr.view = s.rr.view := by rw [rrNote_rr]
@[simp] theorem rrNote_due (s : State) : (rrNote s).rr.due = s.rr.due := by rw [rrNote_rr]
@[simp] theorem rrNote_published (s : State) : (rrNote s).rr.published = s.rr.published := by rw [rrNote_rr]
theorem rrNote_same {s : State} (h : s.rrInputs = s.rr.latest) : rrNote s = s := by simp only [rrNote, h, if_true]

/-- After an event the resolver has been given the inputs as they stand. -/
@[simp] theorem rrNote_latest (s : State) : (rrNote s).rr.latest = s.rrInputs := by
  unfold rrNote
  split
  · next h => exact h.symm
  · simp [RrRec.latest]

/-! ## Examinations (R33) -/

/-- What the choice among the outcomes of one moment can do: it answers one of them, and may count a draw. -/
theorem oneOf_cases (a : State) (rest : List State) (s : State) :
    ∃ b ∈ a :: rest, oneOf (a :: rest) s = b ∨ oneOf (a :: rest) s = { b with draws := s.draws + 1 } := by
  by_cases h : rest.all (fun b => b = a)
  · exact ⟨a, by simp, .inl (by simp only [oneOf, h, if_true])⟩
  · have hlt : Config.orderTaken s.draws % (rest.length + 1) < (a :: rest).length := by
      simpa using Nat.mod_lt _ (Nat.succ_pos _)
    refine ⟨_, List.getElem_mem hlt, .inr ?_⟩
    simp only [oneOf, h]
    rw [List.getD_eq_getElem?_getD, List.getElem?_eq_getElem hlt]
    rfl

theorem insertions_ne_nil {α : Type} (x : α) (l : List α) : insertions x l ≠ [] := by cases l <;> simp [insertions]

theorem orders_ne_nil {α : Type} (l : List α) : orders l ≠ [] := by
  induction l with
  | nil => simp [orders]
  | cons x l ih =>
    obtain ⟨a, m, h⟩ := List.exists_cons_of_ne_nil ih
    obtain ⟨b, n, g⟩ := List.exists_cons_of_ne_nil (insertions_ne_nil x a)
    simp [orders, h, g]

/-- What the changes of one event can do at the request handler: each is examined in one of their orders. -/
theorem examineChanges_cases (v : GrantView) (s : State) :
    ∃ o ∈ orders (v.changed s.grantView), examineChanges v s = examineInOrder o v s ∨
      examineChanges v s = { examineInOrder o v s with draws := s.draws + 1 } := by
  obtain ⟨a, m, h⟩ := List.exists_cons_of_ne_nil (orders_ne_nil (v.changed s.grantView))
  obtain ⟨b, hb, g⟩ := oneOf_cases (examineInOrder a v s) (m.map fun o => examineInOrder o v s) s
  rw [← List.map_cons (f := fun o => examineInOrder o v s), ← h, List.mem_map] at hb
  obtain ⟨o, ho, rfl⟩ := hb
  refine ⟨o, ho, ?_⟩
  simpa only [examineChanges, h, List.map_cons] using g

/-- Without a change nothing is examined. -/
theorem examineChanges_same {v : GrantView} {s : State} (h : v.changed s.grantView = []) : examineChanges v s = s := by
  simp [examineChanges, h, orders, oneOf, examineInOrder]

/-- One change alone is one examination. -/
theorem examineChanges_one {v : GrantView} {s : State} {i : GrantSignal} (h : v.changed s.grantView = [i]) :
    examineChanges v s = rrNote (examineUnder (i.take v s.grantView) s) := by
  simp [examineChanges, h, orders, insertions, oneOf, examineInOrder]

@[simp] theorem examineUnder_entries (v : GrantView) (s : State) : (examineUnder v s).it.entries = s.reexamined v := rfl
@[simp] theorem examineUnder_rollCall (v : GrantView) (s : State) : (examineUnder v s).it.rollCall = s.it.rollCall := rfl
@[simp] theorem examineUnder_grantView (v : GrantView) (s : State) : (examineUnder v s).grantView = s.grantView := rfl
@[simp] theorem examineUnder_draws (v : GrantView) (s : State) : (examineUnder v s).draws = s.draws := rfl
@[simp] theorem reexamine_entries (s : State) : (reexamine s).it.entries = s.reexamined s.grantView := rfl

@[simp] theorem examineInOrder_grantView (o : List GrantSignal) (v : GrantView) (s : State) :
    (examineInOrder o v s).grantView = s.grantView := by
  induction o generalizing v s with
  | nil => rfl
  | cons i o ih => exact (ih _ _).trans (by simp)

@[simp] theorem examineUnder_rr (v : GrantView) (s : State) : (examineUnder v s).rr = s.rr := rfl

/-- What examinations give the resolver: the inputs after each that has changed one join those of the moment, in turn, and
nothing else of its memory changes. -/
theorem examineInOrder_rr (o : List GrantSignal) (v : GrantView) (s : State) :
    ∃ l, (examineInOrder o v s).rr = { s.rr with noted := s.rr.noted ++ l } := by
  induction o generalizing v s with
  | nil => exact ⟨[], by simp [examineInOrder]⟩
  | cons i o ih =>
    obtain ⟨l, h⟩ := ih (i.take v s.grantView) (rrNote (examineUnder (i.take v s.grantView) s))
    by_cases c : (examineUnder (i.take v s.grantView) s).rrInputs = s.rr.latest
    · exact ⟨l, by simp [examineInOrder, h, rrNote_rr, c]⟩
    · exact ⟨_ :: l, by simp [examineInOrder, h, rrNote_rr, c]; rfl⟩

/-- The first of two examinations is handed on by itself: if it has changed an input, the inputs as it leaves them come before
all that the rest of the moment adds. -/
theorem examineInOrder_noted {i : GrantSignal} {o : List GrantSignal} {v : GrantView} {s : State}
    (h : (examineUnder (i.take v s.grantView) s).rrInputs ≠ s.rr.latest) :
    ∃ l, (examineInOrder (i :: o) v s).rr.noted =
      s.rr.noted ++ (examineUnder (i.take v s.grantView) s).rrInputs :: l := by
  obtain ⟨l, g⟩ := examineInOrder_rr o (i.take v s.grantView) (rrNote (examineUnder (i.take v s.grantView) s))
  exact ⟨l, by simp [examineInOrder, g, rrNote_rr, h]⟩

/-- An entry stands as an examination under a view leaves it. -/
def GrantView.settles (v : GrantView) (e : Entry) : Prop := e.state = .active ∨ (v.fails e.kind e.zone).map .pending = some e.state

theorem GrantView.settles_examined (v : GrantView) (e : Entry) : v.settles { e with state := v.examined e } := by
  unfold GrantView.settles GrantView.examined
  cases e.state with
  | active => exact .inl rfl
  | pending r => cases v.fails e.kind e.zone <;> simp

theorem examineUnder_settled (v : GrantView) (s : State) : ∀ e ∈ (examineUnder v s).it.entries, v.settles e := by
  intro e h
  obtain ⟨e, -, rfl⟩ := List.mem_map.1 h
  exact v.settles_examined e

theorem mem_insertions {α : Type} {x y : α} {l m : List α} (h : m ∈ insertions x l) : y ∈ m ↔ y = x ∨ y ∈ l := by
  induction l generalizing m with
  | nil => simp_all [insertions]
  | cons z l ih =>
    rcases List.mem_cons.1 h with rfl | h
    · simp
    · obtain ⟨n, hn, rfl⟩ := List.mem_map.1 h
      simp [ih hn, or_left_comm]

theorem mem_orders {α : Type} {x : α} {l o : List α} (h : o ∈ orders l) : x ∈ o ↔ x ∈ l := by
  induction l generalizing o with
  | nil => simp_all [orders]
  | cons y l ih =>
    obtain ⟨m, hm, ho⟩ := List.mem_flatMap.1 h
    simp [mem_insertions ho, ih hm]

/-- The view after changes given one after the other has the new figure of each change given. -/
theorem foldl_take (o : List GrantSignal) (v g : GrantView) : o.foldl (fun v i => i.take v g) v =
    { rollCall := v.rollCall
      speed := if .speed ∈ o then g.speed else v.speed
      hold := if .hold ∈ o then g.hold else v.hold
      riseReserve := if .rise ∈ o then g.riseReserve else v.riseReserve
      frontFailed := if .zone .front ∈ o then g.frontFailed else v.frontFailed
      rearFailed := if .zone .rear ∈ o then g.rearFailed else v.rearFailed } := by
  induction o generalizing v with
  | nil => rfl
  | cons i o ih =>
    rw [List.foldl_cons, ih]
    rcases i with _ | _ | _ | ⟨_ | _⟩ <;> simp [GrantSignal.take]

/-- When every change has been given, in any order, the view is that of the moment. -/
theorem foldl_take_orders {o : List GrantSignal} {v g : GrantView} (h : o ∈ orders (v.changed g))
    (hr : v.rollCall = g.rollCall) : o.foldl (fun v i => i.take v g) v = g := by
  rw [foldl_take]
  cases v; cases g
  simp_all [mem_orders h, GrantView.changed, GrantSignal.differs]

theorem examineInOrder_settled (o : List GrantSignal) (v : GrantView) (s : State) (h : o ≠ []) :
    ∀ e ∈ (examineInOrder o v s).it.entries, (o.foldl (fun v i => i.take v s.grantView) v).settles e := by
  induction o generalizing v s with
  | nil => exact absurd rfl h
  | cons i o ih =>
    cases o with
    | nil => simpa [examineInOrder] using examineUnder_settled (i.take v s.grantView) s
    | cons j o => simpa [examineInOrder] using ih (i.take v s.grantView) (rrNote (examineUnder (i.take v s.grantView) s)) (by simp)

/-- After the changes of one event every entry stands as the figures of the moment leave it. -/
theorem examineChanges_settled {v : GrantView} {s : State} (h : v.changed s.grantView ≠ [])
    (hr : v.rollCall = s.it.rollCall) : ∀ e ∈ (examineChanges v s).it.entries, s.grantView.settles e := by
  obtain ⟨o, ho, he⟩ := examineChanges_cases v s
  have hn : o ≠ [] := by
    obtain ⟨i, hi⟩ := List.exists_mem_of_ne_nil _ h
    exact List.ne_nil_of_mem ((mem_orders ho).2 hi)
  have g := examineInOrder_settled o v s hn
  rw [foldl_take_orders ho hr] at g
  rcases he with he | he <;> rw [he] <;> exact g

/-! ## The resolver's signal and its inputs -/

theorem rrSignal_rr (s : State) : (rrSignal s).rr = (rrNote s).rr.closeMoment := rfl
@[simp] theorem rrSignal_view (s : State) : (rrSignal s).rr.view = s.rr.view := by rw [rrSignal_rr, rrNote_rr]; rfl
@[simp] theorem rrSignal_published (s : State) : (rrSignal s).rr.published = s.rr.published := by
  rw [rrSignal_rr, rrNote_rr]; rfl
@[simp] theorem rrSignal_now (s : State) : (rrSignal s).now = s.now := by simp [rrSignal]
@[simp] theorem rrSignal_draws (s : State) : (rrSignal s).draws = s.draws := by simp [rrSignal]
@[simp] theorem rrSignal_motion (s : State) : (rrSignal s).motion = s.motion := by simp [rrSignal]
@[simp] theorem rrSignal_it (s : State) : (rrSignal s).it = s.it := by simp [rrSignal]
@[simp] theorem rrSignal_pt (s : State) : (rrSignal s).pt = s.pt := by simp [rrSignal]
@[simp] theorem rrSignal_shc (s : State) : (rrSignal s).shc = s.shc := by simp [rrSignal]
@[simp] theorem rrSignal_lu (s : State) : (rrSignal s).lu = s.lu := by simp [rrSignal]
@[simp] theorem rrSignal_au (s : State) : (rrSignal s).au = s.au := by simp [rrSignal]
@[simp] theorem rrSignal_act (s : State) : (rrSignal s).act = s.act := by simp [rrSignal]
@[simp] theorem rrSignal_sam (s : State) : (rrSignal s).sam = s.sam := by simp [rrSignal]
@[simp] theorem rrSignal_chans (s : State) : (rrSignal s).chans = s.chans := by simp [rrSignal]
@[simp] theorem rrSignal_bdu (s : State) : (rrSignal s).bdu = s.bdu := by simp [rrSignal]
@[simp] theorem rrSignal_cfg (s : State) : (rrSignal s).cfg = s.cfg := by simp [rrSignal]
@[simp] theorem rrSignal_link (s : State) (l : Link) : (rrSignal s).link l = s.link l := by
  have h := rrNote_link s l
  cases l <;> exact h
@[simp] theorem rrSignal_rrInputs (s : State) : (rrSignal s).rrInputs = s.rrInputs := rrNote_rrInputs s

/-- What a signal without a change since the last event noted hands on: the moment as it has been noted. -/
theorem rrSignal_same {s : State} (h : s.rrInputs = s.rr.latest) : rrSignal s = { s with rr := s.rr.closeMoment } := by
  simp [rrSignal, rrNote_same h]

/-- An event that is noted and then the last of its moment is handed on once. -/
@[simp] theorem rrSignal_rrNote (s : State) : rrSignal (rrNote s) = rrSignal s := by
  simp [rrSignal, rrNote_same (s := rrNote s)]

/-- Closing a moment keeps the inputs given last. -/
@[simp] theorem RrRec.closeMoment_latest (r : RrRec) : r.closeMoment.latest = r.latest := by
  unfold RrRec.closeMoment RrRec.latest
  cases h : r.noted with
  | nil => simp
  | cons v l =>
    cases g : (v :: l).getLast? with
    | none => simp at g
    | some w => simp [g]

/-- After the signal the resolver has been given the inputs of the moment. -/
@[simp] theorem rrSignal_latest (s : State) : (rrSignal s).rr.latest = s.rrInputs :=
  (RrRec.closeMoment_latest _).trans (rrNote_latest s)
@[simp] theorem rrSignal_noted (s : State) : (rrSignal s).rr.noted = [] := rfl

theorem mem_allInputs (i : RrInput) : i ∈ allInputs := by
  cases i with
  | zone z => cases z <;> decide
  | chan c => cases c with
    | h n => cases n <;> decide
    | p n => cases n <;> decide
    | b n => cases n <;> decide
    | _ => decide
  | mode a => cases a <;> decide
  | modFailed a => cases a <;> decide
  | valveFailed k => cases k <;> decide
  | _ => decide

/-- Nothing of a moment is left to take exactly when it holds no other figure of any input. -/
theorem RrRec.changed_eq_nil {r : RrRec} {m : List RrIn} :
    r.changed m = [] ↔ ∀ v ∈ m, ∀ i : RrInput, i.differs r.view v = false := by
  simp only [RrRec.changed, List.filter_eq_nil_iff, List.any_eq_true, not_exists, not_and, Bool.not_eq_true]
  exact ⟨fun h v hv i => h i (mem_allInputs i) v hv, fun h i _ v hv => h v hv i⟩

/-- What taking an input from a moment can do: the moment holds no other figure of it, or the first other figure is taken and
stands at the events before too. -/
theorem RrInput.pass_cases (i : RrInput) (view : RrIn) (m : List RrIn) :
    ((∀ v ∈ m, i.differs view v = false) ∧ (i.pass view m).1 = view) ∨
    ∃ pre w post, m = pre ++ w :: post ∧ (∀ v ∈ pre, i.differs view v = false) ∧ i.differs view w = true ∧
      i.pass view m = (i.take view w, (pre.map fun v => i.take v (i.take view w)) ++ w :: post) := by
  induction m with
  | nil => exact .inl ⟨by simp, rfl⟩
  | cons v m ih =>
    by_cases h : i.differs view v
    · exact .inr ⟨[], v, m, rfl, by simp, h, by simp [RrInput.pass, h]⟩
    · rcases ih with ⟨g, e⟩ | ⟨pre, w, post, rfl, g, hw, e⟩
      · exact .inl ⟨by simpa [h] using g, by simp [RrInput.pass, h, e]⟩
      · exact .inr ⟨v :: pre, w, post, rfl, by simpa [h] using g, hw, by simp [RrInput.pass, h, e]⟩

/-- What taking an input can do: nothing is due; what was due brings no change; or one input that differs is taken, and the
moment stays due while something of it is left to take. -/
theorem takeInput_cases (s : State) :
    (s.rr.due = [] ∧ takeInput s = s) ∨
    ∃ m rest, s.rr.due = m :: rest ∧
      ((s.rr.changed m = [] ∧ takeInput s = { s with rr := { s.rr with due := rest } }) ∨
      (∃ i, s.rr.changed m = [i] ∧ takeInput s = { s with rr := s.rr.taken i m rest }) ∨
      (1 < (s.rr.changed m).length ∧ ∃ i ∈ s.rr.changed m,
        takeInput s = { s with draws := s.draws + 1, rr := s.rr.taken i m rest })) := by
  unfold takeInput
  split
  · next h => exact .inl ⟨h, rfl⟩
  · next m rest h =>
    refine .inr ⟨m, rest, h, ?_⟩
    split
    · next g => exact .inl ⟨g, rfl⟩
    · next i g => exact .inr (.inl ⟨i, g, rfl⟩)
    · next i more _ g =>
      refine .inr (.inr ⟨?_, _, ?_, rfl⟩)
      · rw [g]; cases more with
        | nil => simp_all
        | cons => simp
      · rw [g]
        have hlt : Config.inputTaken s.draws % (more.length + 1) < (i :: more).length := by
          simpa using Nat.mod_lt _ (Nat.succ_pos _)
        rw [List.getD_eq_getElem?_getD, List.getElem?_eq_getElem hlt]
        exact List.getElem_mem hlt

/-! ## A corner at a levelling period -/

/-- R3, R134: a corner whose height channel has no state is held with reason FAILED and asked to release. -/
theorem levelCorner_absent {s : State} {k : Corner} (h : (s.heightChan k).st = none) :
    ((levelCorner s k).corner k).valve = .hold ∧ ((levelCorner s k).corner k).reason = some .failed ∧
      ((levelCorner s k).corner k).persist = 0 ∧ ((levelCorner s k).corner k).mode = (s.corner k).mode ∧
      ((levelCorner s k).act.c.get k).release = true := by
  have m : s.actingMode k = .failed := by simp [State.actingMode, h]
  simp [levelCorner, m, persistAfter, valveDecision, sendValve, State.corner, State.setCorner]

/-! ## Clock -/

@[simp] theorem State.reach_now (s : State) (t : Nat) : (s.reach t).now = max s.now t := rfl
@[simp] theorem atExpiry_none (s : State) (f : Nat → State → State) : atExpiry none s f = s := rfl
@[simp] theorem atExpiry_some (d : Nat) (s : State) (f : Nat → State → State) : atExpiry (some d) s f = f d (s.reach d) := rfl

end Sys2Proof.Machine
end

