-- ==== Sys2Proof/Laws/Frames.lean ====
section
/-! SUPPORT. What each shared operation can change, said once: an operation changes nothing outside the parts its lemma
names. -/
namespace Sys2Proof.Safety
open Sys2Proof.Machine

/-! ## The frame relation -/

theorem SameOutside.refl (ps : List Part) (s : State) : SameOutside ps s s := by
  intro p _; cases p <;> simp [Part.same]

theorem SameOutside.mono {ps qs : List Part} {s t : State} (h : SameOutside ps s t) (hs : ps ⊆ qs) : SameOutside qs s t :=
  fun p hp => h p fun hm => hp (hs hm)

theorem SameOutside.trans {ps : List Part} {s t u : State} (h : SameOutside ps s t) (g : SameOutside ps t u) :
    SameOutside ps s u := by
  intro p hp
  have a := h p hp
  have b := g p hp
  cases p <;> simp_all [Part.same]

/-- Two changes one after the other, within one list of parts. -/
theorem SameOutside.comp {ps qs rs : List Part} {s t u : State} (g : SameOutside qs t u) (h : SameOutside ps s t)
    (hp : ps ⊆ rs) (hq : qs ⊆ rs) : SameOutside rs s u :=
  (h.mono hp).trans (g.mono hq)

theorem SameOutside.foldl {α : Type} {ps : List Part} {f : State → α → State} (h : ∀ s x, SameOutside ps s (f s x))
    (l : List α) (s : State) : SameOutside ps s (l.foldl f s) := by
  induction l generalizing s with
  | nil => exact .refl ps s
  | cons x l ih => exact (h s x).trans (ih (f s x))

/-- A conditional change. -/
theorem SameOutside.ite {ps : List Part} {s t u : State} {c : Prop} [Decidable c] (h : SameOutside ps s t)
    (g : SameOutside ps s u) : SameOutside ps s (if c then t else u) := by
  split
  · exact h
  · exact g

/-! ## Shared operations -/

theorem reach_frame (s : State) (t : Nat) : SameOutside [.now] s (s.reach t) := by
  intro p hp; cases p <;> simp_all [Part.same, State.reach]

theorem atExpiry_frame {ps : List Part} {f : Nat → State → State} (h : ∀ d s, SameOutside ps s (f d s)) (hn : .now ∈ ps)
    (t : Timer) (s : State) : SameOutside ps s (atExpiry t s f) := by
  cases t with
  | none => exact .refl ps s
  | some d => exact (h d _).comp (reach_frame s d) (by simpa using hn) (fun _ h => h)

theorem onLink_frame (s : State) (l : Link) (f : LinkRec → LinkRec) : SameOutside [.links] s (s.onLink l f) := by
  intro p hp; cases l <;> cases p <;> simp_all [Part.same, State.onLink]

theorem onBoth_frame (s : State) (f : LinkRec → LinkRec) : SameOutside [.links] s (s.onBoth f) := by
  intro p hp; cases p <;> simp_all [Part.same, State.onBoth]

theorem fillAll_frame (s : State) : SameOutside [.links] s (fillAll s) := onBoth_frame s _
theorem notify_frame (ns : List Notice) (s : State) : SameOutside [.links] s (notify ns s) := onBoth_frame s _
theorem restraintNotice_frame (r : Restraint) (n : Nat) (s : State) : SameOutside [.links] s (restraintNotice r n s) :=
  onBoth_frame s _
theorem answer_frame (l : Link) (r : Reply) (s : State) : SameOutside [.links] s (answer l r s) := onLink_frame s l _
theorem refuse_frame (l : Link) (q : Request) (w : RefusalReason) (s : State) : SameOutside [.links] s (refuse l q w s) :=
  onLink_frame s l _

theorem rr_frame (s : State) (r : RrRec) : SameOutside [.rr] s { s with rr := r } := by
  intro p hp; cases p <;> simp_all [Part.same]

theorem rrNote_frame (s : State) : SameOutside [.rr] s (rrNote s) := .ite (.refl _ s) (rr_frame s _)
theorem rrSignal_frame (s : State) : SameOutside [.rr] s (rrSignal s) := (rrNote_frame s).trans (rr_frame _ _)

theorem examineUnder_frame (v : GrantView) (s : State) : SameOutside [.it, .links] s (examineUnder v s) := by
  refine (notify_frame _ _).comp (ps := [.it]) ?_ (by decide) (by decide)
  intro p hp; cases p <;> simp_all [Part.same]
theorem reexamine_frame (s : State) : SameOutside [.it, .links] s (reexamine s) := examineUnder_frame _ s

theorem examineInOrder_frame (o : List GrantSignal) (v : GrantView) (s : State) :
    SameOutside [.it, .rr, .links] s (examineInOrder o v s) := by
  induction o generalizing v s with
  | nil => exact .refl _ s
  | cons i o ih =>
    exact ((rrNote_frame _).comp (examineUnder_frame _ s) (by decide) (by decide)).trans (ih _ _)

theorem draws_frame (s : State) (n : Nat) : SameOutside [.draws] s { s with draws := n } := by
  intro p hp; cases p <;> simp_all [Part.same]

theorem examineChanges_frame (v : GrantView) (s : State) : SameOutside [.draws, .it, .rr, .links] s (examineChanges v s) := by
  obtain ⟨o, -, h | h⟩ := examineChanges_cases v s
  · exact h ▸ (examineInOrder_frame o v s).mono (by decide)
  · exact h ▸ (draws_frame _ _).comp (examineInOrder_frame o v s) (by decide) (by decide)

theorem shcEnter_frame (st : HoldState) (s : State) : SameOutside [.shc, .rr] s (shcEnter st s) := by
  intro p hp; cases p <;> simp_all [Part.same, shcEnter]
theorem shcGo_frame (st : HoldState) (s : State) : SameOutside [.shc, .rr, .it, .links] s (shcGo st s) :=
  (rrNote_frame _).comp (ps := [.shc, .rr, .it, .links]) ((reexamine_frame _).comp (shcEnter_frame st s) (by decide) (by decide))
    (by decide) (by decide)

theorem shc_frame (s : State) (h : ShcRec) : SameOutside [.shc] s { s with shc := h } := by
  intro p hp; cases p <;> simp_all [Part.same]

theorem shcApply_frame (s : State) : SameOutside [.shc, .rr, .it, .links] s (shcApply s) :=
  (shcGo_frame _ _).comp (shc_frame s _) (by decide) (by decide)
theorem shcReapply_frame (s : State) : SameOutside [.shc, .rr, .it, .links] s (shcReapply s) :=
  (shcGo_frame _ _).comp (shc_frame s _) (by decide) (by decide)
theorem shcStops_frame (s : State) : SameOutside [.shc, .rr, .it, .links] s (shcStops s) :=
  (shc_frame _ _).comp (shcApply_frame s) (by decide) (by decide)
theorem shcArmed_frame (s : State) : SameOutside [.shc, .rr, .it, .links] s (shcArmed s) :=
  .ite (shcStops_frame s) (.refl _ s)

theorem shcDue_frame (s : State) : SameOutside [.shc, .rr, .it, .links] s (shcDue s) :=
  .ite ((shcArmed_frame _).comp (shc_frame s _) (by decide) (by decide)) (.refl _ s)

theorem shcStandstill_frame (s : State) : SameOutside [.draws, .shc, .rr, .it, .links] s (shcStandstill s) := by
  refine .ite (.ite ?_ ?_) ((shcArmed_frame s).mono (by decide))
  · exact (draws_frame (shcStops s) (s.draws + 1)).comp (shcStops_frame s) (by decide) (by decide)
  · intro p hp; cases p <;> simp_all [Part.same]

theorem startCreepTimer_frame (s : State) : SameOutside [.shc] s (startCreepTimer s) := shc_frame s _

theorem creepFollow_frame (s : State) : SameOutside [.shc] s (creepFollow s) := by
  unfold creepFollow
  split
  · exact shc_frame s _
  · exact shc_frame s _
  all_goals
    split
    · exact .ite (.refl _ s) (shc_frame s _)
    · exact (startCreepTimer_frame _).comp (shc_frame s _) (by decide) (by decide)

theorem shcSpeed_frame (s : State) : SameOutside [.draws, .shc, .rr, .it, .links] s (shcSpeed s) := by
  unfold shcSpeed
  split
  · exact shcStandstill_frame s
  · exact (creepFollow_frame s).mono (by decide)
  all_goals exact .refl _ s

theorem au_frame (s : State) (a : AuRec) : SameOutside [.au] s { s with au := a } := by
  intro p hp; cases p <;> simp_all [Part.same]

theorem auTake_frame (s : State) : SameOutside [.au] s (auTake s) := by
  exact .ite (au_frame s _) (au_frame s _)

theorem tagFault_frame (c : FaultCause) (s : State) : SameOutside [.au, .act] s (tagFault c s) := by
  intro p hp; cases p <;> simp_all [Part.same, tagFault]

theorem lu_frame (s : State) (l : LuRec) : SameOutside [.lu] s { s with lu := l } := by
  intro p hp; cases p <;> simp_all [Part.same]
theorem act_frame (s : State) (a : Actuators) : SameOutside [.act] s { s with act := a } := by
  intro p hp; cases p <;> simp_all [Part.same]

theorem setCorner_frame (s : State) (k : Corner) (c : CornerRec) : SameOutside [.lu] s (s.setCorner k c) := lu_frame s _
theorem setZone_frame (s : State) (z : Zone) (r : ZoneRec) : SameOutside [.lu] s (s.setZone z r) := lu_frame s _
theorem commandValve_frame (s : State) (k : Corner) (v : Valve) : SameOutside [.act] s (s.commandValve k v) := act_frame s _
theorem releaseValve_frame (s : State) (k : Corner) (r : Bool) : SameOutside [.act] s (s.releaseValve k r) := act_frame s _

theorem withdraw_frame (w : HoldReason) (s : State) (k : Corner) : SameOutside [.lu, .act] s (withdraw w s k) :=
  (commandValve_frame _ _ _).comp (setCorner_frame s _ _) (by decide) (by decide)

theorem enterMode_frame (s : State) (k : Corner) : SameOutside [.lu, .act] s (enterMode s k) := by
  unfold enterMode
  dsimp only
  split
  · exact .refl _ s
  · split
    · exact (releaseValve_frame _ _ _).comp (setCorner_frame s _ _) (by decide) (by decide)
    · refine .ite ((setCorner_frame s _ _).mono (by decide)) ?_
      exact (withdraw_frame _ _ _).comp (setCorner_frame s _ _) (by decide) (by decide)
    · exact (setCorner_frame s _ _).mono (by decide)
    · exact (setCorner_frame s _ _).mono (by decide)

theorem deriveModes_frame (ks : List Corner) (s : State) : SameOutside [.lu, .act] s (deriveModes ks s) :=
  .foldl enterMode_frame ks s
theorem signalFailed_frame (b : LuRec) (s : State) : SameOutside [.draws, .it, .rr, .links] s (signalFailed b s) :=
  examineChanges_frame _ s
theorem setTargets_frame (ks : List Corner) (s : State) : SameOutside [.lu] s (setTargets ks s) :=
  .foldl (fun s k => setCorner_frame s k _) ks s
theorem captureLoad_frame (s : State) (k : Corner) : SameOutside [.lu] s (captureLoad s k) := setCorner_frame s k _
theorem clearLoad_frame (s : State) (k : Corner) : SameOutside [.lu] s (clearLoad s k) := .ite (setCorner_frame s k _) (.refl _ s)

theorem zoneUp_frame (z : Zone) (s : State) : SameOutside [.lu, .act, .au] s (zoneUp z s) := by
  refine (auTake_frame _).comp (ps := [.lu, .act]) ?_ (by decide) (by decide)
  refine (SameOutside.foldl clearLoad_frame _ _).comp (ps := [.lu, .act]) ?_ (by decide) (by decide)
  refine (deriveModes_frame _ _).comp (ps := [.lu]) ?_ (by decide) (by decide)
  exact (setTargets_frame _ _).comp (setZone_frame s _ _) (by decide) (by decide)

theorem zoneTest_frame (z : Zone) (s : State) : SameOutside [.lu, .act, .au] s (zoneTest z s) := by
  unfold zoneTest
  split
  · exact .refl _ s
  · exact .ite ((setZone_frame s _ _).mono (by decide)) (.refl _ s)
  · exact .ite ((setZone_frame s _ _).mono (by decide)) (.refl _ s)
  · exact .ite (zoneUp_frame z s) (.refl _ s)
  · exact .ite (zoneUp_frame z s) (.refl _ s)

theorem zoneLower_frame (z : Zone) (s : State) : SameOutside [.rr, .lu, .act, .au] s (zoneLower z s) := by
  unfold zoneLower
  dsimp only
  refine (zoneTest_frame z _).comp (ps := [.rr, .lu, .act, .au]) ?_ (by decide) (by decide)
  refine (rrNote_frame _).comp (ps := [.lu, .act, .au]) ?_ (by decide) (by decide)
  refine (auTake_frame _).comp (ps := [.lu, .act]) ?_ (by decide) (by decide)
  have h : SameOutside [.lu, .act] s (deriveModes (zoneCorners z) (setTargets (zoneCorners z) (s.setZone z { s.zone z with
      state := .lowering, target := (s.zone z).depth, incomplete := false, override := false, timer := some (s.now + 6000) }))) := by
    refine (deriveModes_frame _ _).comp (ps := [.lu]) ?_ (by decide) (by decide)
    exact (setTargets_frame _ _).comp (setZone_frame s _ _) (by decide) (by decide)
  exact .ite ((SameOutside.foldl captureLoad_frame _ _).comp h (by decide) (by decide)) h

theorem zoneRise_frame (z : Zone) (m : Bool) (s : State) : SameOutside [.rr, .lu, .act, .au] s (zoneRise z m s) := by
  refine (zoneTest_frame z _).comp (ps := [.rr, .lu]) ?_ (by decide) (by decide)
  refine (rrNote_frame _).comp (ps := [.lu]) ?_ (by decide) (by decide)
  exact (setTargets_frame _ _).comp (setZone_frame s _ _) (by decide) (by decide)

theorem zoneRetarget_frame (z : Zone) (t : Timer) (s : State) : SameOutside [.lu, .act, .au] s (zoneRetarget z t s) := by
  refine (zoneTest_frame z _).comp (ps := [.lu]) ?_ (by decide) (by decide)
  exact (setTargets_frame _ _).comp (setZone_frame s _ _) (by decide) (by decide)

theorem zoneSpeed_frame (z : Zone) (s : State) : SameOutside [.rr, .lu, .act, .au] s (zoneSpeed z s) := by
  unfold zoneSpeed
  split
  · exact .refl _ s
  · exact .refl _ s
  · split
    · exact .refl _ s
    all_goals exact .ite (zoneLower_frame z s) (.refl _ s)
  · split
    · exact .refl _ s
    · exact zoneRise_frame z true s
    · exact zoneRise_frame z true s
    · exact (setZone_frame s _ _).mono (by decide)
    · exact .ite (.refl _ s) ((setZone_frame s _ _).mono (by decide))

theorem cornersChanged_frame (ks : List Corner) (s : State) :
    SameOutside [.lu, .act, .au] s (cornersChanged ks s) := by
  unfold cornersChanged
  dsimp only
  have h := (deriveModes_frame ks s).mono (qs := [.lu, .act, .au]) (by decide)
  have g : SameOutside [.lu, .act, .au] s
      (if modesChanged s.lu (deriveModes ks s).lu .front then zoneTest .front (deriveModes ks s) else deriveModes ks s) :=
    .ite (h.trans (zoneTest_frame _ _)) h
  exact .ite (g.trans (zoneTest_frame _ _)) g

theorem arrivalTest_frame (z : Zone) (s : State) : SameOutside [.lu, .act, .au] s (arrivalTest z s) := by
  unfold arrivalTest
  split
  · exact zoneTest_frame z s
  · exact zoneTest_frame z s
  all_goals exact .refl _ s

theorem persistNow_frame (s : State) (k : Corner) : SameOutside [.lu] s (persistNow s k) :=
  .ite (setCorner_frame s k _) (.refl _ s)

theorem changeRide_frame (v : RideLevel) (c : RideCause) (s : State) :
    SameOutside [.draws, .rr, .lu, .act, .au, .it, .links] s (changeRide v c s) := by
  have h1 := lu_frame s { s.lu with ride := v, cause := c }
  have h2 := h1.trans (setTargets_frame allCorners _)
  have h3 := h2.trans (SameOutside.foldl persistNow_frame allCorners _)
  have h4 := (arrivalTest_frame .front _).comp (rs := [.lu, .act, .au]) h3 (by decide) (by decide)
  have h5 := (signalFailed_frame s.lu _).comp (rs := [.draws, .rr, .lu, .act, .au, .it, .links]) (h4.trans (arrivalTest_frame .rear _))
    (by decide) (by decide)
  exact (rrSignal_frame _).comp h5 (by decide) (by decide)

theorem motion_frame (s : State) (m : MotionRec) : SameOutside [.motion] s { s with motion := m } := by
  intro p hp; cases p <;> simp_all [Part.same]

theorem speedSignal_frame (v : SpeedState) (s : State) :
    SameOutside [.draws, .motion, .shc, .rr, .it, .lu, .act, .au, .links] s (speedSignal v s) := by
  refine .ite (.refl _ s) ?_
  refine (examineChanges_frame _ _).comp (ps := [.draws, .motion, .shc, .rr, .it, .lu, .act, .au, .links]) ?_ (by decide) (by decide)
  refine (auTake_frame _).comp (ps := [.draws, .motion, .shc, .rr, .it, .lu, .act, .au, .links]) ?_ (by decide) (by decide)
  refine (zoneSpeed_frame _ _).comp (ps := [.draws, .motion, .shc, .rr, .it, .lu, .act, .au, .links]) ?_ (by decide) (by decide)
  refine (zoneSpeed_frame _ _).comp (ps := [.draws, .motion, .shc, .rr, .it, .links]) ?_ (by decide) (by decide)
  refine (shcSpeed_frame _).comp (ps := [.motion, .shc, .rr, .it, .links]) ?_ (by decide) (by decide)
  have h := (shc_frame _ { (shcDue s).shc with standstillTaken := false }).comp (rs := [.shc, .rr, .it, .links]) (shcDue_frame s)
    (by decide) (by decide)
  exact (motion_frame _ { (shcDue s).motion with speedState := v }).comp h (by decide) (by decide)

theorem publish_frame (r : Restraint) (s : State) : SameOutside [.rr, .act, .links] s (publish r s) := by
  refine (restraintNotice_frame _ _ _).comp (ps := [.rr, .act]) ?_ (by decide) (by decide)
  intro p hp; cases p <;> simp_all [Part.same]

theorem recompute_frame (s : State) : SameOutside [.rr, .act, .links] s (recompute s) := by
  have h := rr_frame s s.rr.follow
  exact .ite (h.mono (by decide)) ((publish_frame _ _).comp h (by decide) (by decide))

theorem takeInput_frame (s : State) : SameOutside [.draws, .rr] s (takeInput s) := by
  unfold takeInput
  split
  · exact .refl _ s
  · split
    · exact (rr_frame s _).mono (by decide)
    · exact (rr_frame s _).mono (by decide)
    · intro p hp; cases p <;> simp_all [Part.same]

/-! ## Tables -/

theorem it_frame (s : State) (i : ItRec) : SameOutside [.it] s { s with it := i } := by
  intro p hp; cases p <;> simp_all [Part.same]
theorem updVol_frame (s : State) (n : Nat) (f : PtVol → PtVol) : SameOutside [.pt] s (s.updVol n f) := by
  intro p hp; cases p <;> simp_all [Part.same, State.updVol]
theorem hear_frame (n lease : Nat) (s : State) : SameOutside [.pt] s (hear n lease s) := updVol_frame s n _
theorem addEntry_frame (e : Entry) (s : State) : SameOutside [.it] s (addEntry e s) := it_frame s _
theorem putEntry_frame (e : Entry) (s : State) : SameOutside [.it] s (putEntry e s) := it_frame s _
theorem retire_frame (e : Entry) (s : State) : SameOutside [.it, .links] s (retire e s) :=
  (notify_frame _ _).comp (it_frame s _) (by decide) (by decide)

theorem openRollCall_frame (s : State) : SameOutside [.pt, .it, .links] s (openRollCall s) := by
  refine .ite ((notify_frame _ _).comp (ps := [.pt, .it]) ?_ (by decide) (by decide)) (.refl _ s)
  intro p hp; cases p <;> simp_all [Part.same]

/-- What follows the records at a sample: the examinations of its changes, the opening of the roll call and the signals. -/
theorem sample_afterRecords_frame (raw : PerChan Nat) (s : State) :
    SameOutside [.draws, .pt, .it, .rr, .links] (sampleRecords raw (shcDue s)) (sample raw s) := by
  refine (rrSignal_frame _).comp (ps := [.draws, .pt, .it, .rr, .links]) ?_ (by decide) (by decide)
  refine (fillAll_frame _).comp (ps := [.draws, .pt, .it, .rr, .links]) ?_ (by decide) (by decide)
  exact (openRollCall_frame _).comp (examineChanges_frame (shcDue s).grantView _) (by decide) (by decide)

theorem closeRollCall_frame (s : State) : SameOutside [.it, .rr, .links] s (closeRollCall s) := by
  refine (rrSignal_frame _).comp (ps := [.it, .links]) ?_ (by decide) (by decide)
  refine (notify_frame _ _).comp (ps := [.it]) ?_ (by decide) (by decide)
  have h : SameOutside [.it] s (s.missingRows.foldl addRecovery s) := .foldl (fun s n => addEntry_frame _ s) _ s
  exact (h.trans (it_frame _ _)).trans (it_frame _ _)

theorem abandonReport_frame (n : Nat) (row : PtCfg) (s : State) : SameOutside [.pt, .links] s (abandonReport n row s) := by
  unfold abandonReport
  split
  · exact .refl _ s
  · exact (onLink_frame _ _ _).comp (updVol_frame s n _) (by decide) (by decide)

theorem takeStaged_frame (n : Nat) (row : PtCfg) (c : Completion) (f : EntryFields) :
    SameOutside [.it] c.state (takeStaged n row c f).state := by
  unfold takeStaged
  split
  · split
    · exact putEntry_frame _ _
    · split
      · exact addEntry_frame _ _
      · exact .refl _ _
  · exact .refl _ _

theorem takeStaged_foldl_frame (n : Nat) (row : PtCfg) (l : List EntryFields) (c : Completion) :
    SameOutside [.it] c.state (l.foldl (takeStaged n row) c).state := by
  induction l generalizing c with
  | nil => exact .refl _ _
  | cons f l ih => exact (takeStaged_frame n row c f).trans (ih _)

theorem completeReport_frame (n : Nat) (row : PtCfg) (staged : List EntryFields) (base : Reply) (s : State) :
    SameOutside [.pt, .it, .rr, .links] s (completeReport n row staged base s).1 := by
  refine (rrSignal_frame _).comp (ps := [.pt, .it, .links]) ?_ (by decide) (by decide)
  refine (notify_frame _ _).comp (ps := [.pt, .it]) ?_ (by decide) (by decide)
  refine (takeStaged_foldl_frame n row staged _).comp (ps := [.pt, .it]) ?_ (by decide) (by decide)
  exact (it_frame _ _).comp (updVol_frame s n _) (by decide) (by decide)

/-- R48: what taking a request can change, for what its own rule can change. -/
theorem serve_frame {ps : List Part} {act : Nat → PtCfg → Request → State → State}
    (h : ∀ n row q s, SameOutside ps s (act n row q s)) (hp : .pt ∈ ps) (hl : .links ∈ ps)
    (l : Link) (mine : Request → Bool) (s : State) : SameOutside ps s (serve l mine act s) := by
  have sub : [Part.links] ⊆ ps := by simpa using hl
  unfold serve
  split
  · split
    · exact .refl _ s
    · split
      · refine (fillAll_frame _).comp (ps := ps) ?_ (fun _ h => h) sub
        have ho := (onLink_frame s l fun r => { r with rx := ‹List RxFrame› }).mono sub
        refine ho.trans ?_
        split
        · exact (refuse_frame _ _ _ _).mono sub
        · exact (h _ _ _ _).comp (hear_frame _ _ _) (by simpa using hp) (fun _ h => h)
      · exact .refl _ s
  · exact .refl _ s

end Sys2Proof.Safety
end

