-- ==== Sys2Proof/Laws/Links.lean ====
section
/-! SUPPORT. What the shared operations on a link's record leave alone, and how many items its queues hold after them. -/
namespace Sys2Proof.Machine

/-- What placing and filling leave alone in a link's record: what was received, the counts and the list context. -/
def LinkRec.Kept (a b : LinkRec) : Prop :=
  b.rx = a.rx ∧ b.overruns = a.overruns ∧ b.txErrors = a.txErrors ∧ b.rxErrors = a.rxErrors ∧ b.recessive = a.recessive ∧
    b.listCtx = a.listCtx ∧ b.lastSent = a.lastSent

theorem LinkRec.Kept.refl (l : LinkRec) : l.Kept l := ⟨rfl, rfl, rfl, rfl, rfl, rfl, rfl⟩

theorem LinkRec.Kept.trans {a b c : LinkRec} (h : a.Kept b) (g : b.Kept c) : a.Kept c := by
  obtain ⟨h1, h2, h3, h4, h5, h6, h7⟩ := h
  obtain ⟨g1, g2, g3, g4, g5, g6, g7⟩ := g
  exact ⟨g1.trans h1, g2.trans h2, g3.trans h3, g4.trans h4, g5.trans h5, g6.trans h6, g7.trans h7⟩

theorem LinkRec.Kept.ite {a b d : LinkRec} {c : Prop} [Decidable c] (h : a.Kept b) (g : a.Kept d) : a.Kept (if c then b else d) := by
  split
  · exact h
  · exact g

theorem LinkRec.placeReply_kept (r : Reply) (l : LinkRec) : l.Kept (l.placeReply r) := .ite (.refl l) ⟨rfl, rfl, rfl, rfl, rfl, rfl, rfl⟩

theorem LinkRec.placeNotice_kept (n : Notice) (l : LinkRec) : l.Kept (l.placeNotice n) :=
  .ite (.refl l) <| .ite ⟨rfl, rfl, rfl, rfl, rfl, rfl, rfl⟩ <| .ite ⟨rfl, rfl, rfl, rfl, rfl, rfl, rfl⟩ <|
    .ite ⟨rfl, rfl, rfl, rfl, rfl, rfl, rfl⟩ <| .ite ⟨rfl, rfl, rfl, rfl, rfl, rfl, rfl⟩ <|
    .ite ⟨rfl, rfl, rfl, rfl, rfl, rfl, rfl⟩ ⟨rfl, rfl, rfl, rfl, rfl, rfl, rfl⟩

theorem LinkRec.giveBack_kept (x : Slot) (l : LinkRec) : l.Kept (l.giveBack x) := by
  unfold LinkRec.giveBack; split <;> exact ⟨rfl, rfl, rfl, rfl, rfl, rfl, rfl⟩

theorem LinkRec.placeRestraint_kept (i : TxItem) (l : LinkRec) : l.Kept (l.placeRestraint i) :=
  .ite (.refl l) <| .ite ⟨rfl, rfl, rfl, rfl, rfl, rfl, rfl⟩ <| .ite ⟨rfl, rfl, rfl, rfl, rfl, rfl, rfl⟩ <|
    .ite ⟨rfl, rfl, rfl, rfl, rfl, rfl, rfl⟩ <| .ite ⟨rfl, rfl, rfl, rfl, rfl, rfl, rfl⟩ <|
    .ite ⟨rfl, rfl, rfl, rfl, rfl, rfl, rfl⟩ <| .ite ⟨rfl, rfl, rfl, rfl, rfl, rfl, rfl⟩ <|
    .ite ((l.giveBack_kept l.slot3).trans ⟨rfl, rfl, rfl, rfl, rfl, rfl, rfl⟩) <|
    .ite ((l.giveBack_kept l.slot2).trans ⟨rfl, rfl, rfl, rfl, rfl, rfl, rfl⟩) <|
    .ite ((l.giveBack_kept l.slot1).trans ⟨rfl, rfl, rfl, rfl, rfl, rfl, rfl⟩) (.refl l)

theorem LinkRec.nextItem_kept {l r : LinkRec} {i : TxItem} (h : l.nextItem = some (i, r)) : l.Kept r := by
  unfold LinkRec.nextItem at h
  split at h
  · cases h; exact ⟨rfl, rfl, rfl, rfl, rfl, rfl, rfl⟩
  · split at h
    · cases h; exact ⟨rfl, rfl, rfl, rfl, rfl, rfl, rfl⟩
    · split at h
      · cases h; exact ⟨rfl, rfl, rfl, rfl, rfl, rfl, rfl⟩
      · split at h
        · cases h; exact ⟨rfl, rfl, rfl, rfl, rfl, rfl, rfl⟩
        · contradiction

/-- R191: a page that goes into a slot is a displaced one, which leaves the page count, or the page of the count with none
displaced, which advances it. -/
theorem LinkRec.nextItem_page {l r : LinkRec} {p : Nat} (h : l.nextItem = some (.status p, r)) :
    (∃ rest, l.returned = p :: rest ∧ r = { l with returned := rest }) ∨
    (l.returned = [] ∧ l.due = true ∧ p = l.nextPage ∧ r = { l with due := false, nextPage := (l.nextPage + 1) % 15 }) := by
  unfold LinkRec.nextItem at h
  split at h
  · cases h
  · split at h
    · cases h
    · split at h
      · next g => cases h; exact .inl ⟨_, g, rfl⟩
      · next g =>
        split at h
        · next d => cases h; exact .inr ⟨g, d, rfl, rfl⟩
        · contradiction

/-- A page due again keeps the others that are, in their order, and joins them behind those taken before it. -/
theorem insertPage_split (next p : Nat) (l : List Nat) :
    ∃ a b, l = a ++ b ∧ insertPage next p l = a ++ p :: b ∧ ∀ q ∈ a, pageAge next p ≤ pageAge next q := by
  induction l with
  | nil => exact ⟨[], [], rfl, rfl, by simp⟩
  | cons q rest ih =>
    unfold insertPage
    split
    · exact ⟨[], q :: rest, rfl, rfl, by simp⟩
    · next h =>
      obtain ⟨a, b, e, i, g⟩ := ih
      refine ⟨q :: a, b, by simp [e], by simp [i], ?_⟩
      simp only [List.mem_cons, forall_eq_or_imp]
      exact ⟨by omega, g⟩

theorem LinkRec.fill1_kept (l : LinkRec) : l.Kept l.fill1 := by
  unfold LinkRec.fill1
  split
  · next h => exact (LinkRec.nextItem_kept h).trans ⟨rfl, rfl, rfl, rfl, rfl, rfl, rfl⟩
  · exact .refl l

theorem LinkRec.fill2_kept (l : LinkRec) : l.Kept l.fill2 := by
  unfold LinkRec.fill2
  split
  · next h => exact (LinkRec.nextItem_kept h).trans ⟨rfl, rfl, rfl, rfl, rfl, rfl, rfl⟩
  · exact .refl l

theorem LinkRec.fill3_kept (l : LinkRec) : l.Kept l.fill3 := by
  unfold LinkRec.fill3
  split
  · next h => exact (LinkRec.nextItem_kept h).trans ⟨rfl, rfl, rfl, rfl, rfl, rfl, rfl⟩
  · exact .refl l

theorem LinkRec.fill_kept (l : LinkRec) : l.Kept l.fill := by
  unfold LinkRec.fill
  split
  · exact .refl l
  · exact (l.fill1_kept.trans (LinkRec.fill2_kept _)).trans (LinkRec.fill3_kept _)

/-! ## The length of the queues -/

theorem LinkRec.placeReply_length (r : Reply) (l : LinkRec) : (l.placeReply r).replies.length ≤ l.replies.length + 1 := by
  unfold LinkRec.placeReply; split <;> simp

theorem LinkRec.placeReplyIfRoom_bound (r : Reply) (l : LinkRec) (h : l.replies.length ≤ 8) :
    (l.placeReplyIfRoom r).replies.length ≤ 8 := by
  unfold LinkRec.placeReplyIfRoom
  split
  · have := l.placeReply_length r; omega
  · exact h

theorem LinkRec.placeNotice_bound (n : Notice) (l : LinkRec) (h : l.notices.length ≤ 32) :
    (l.placeNotice n).notices.length ≤ 32 := by
  have full : (l.notices.tail ++ [n]).length ≤ 32 := by
    simp only [List.length_append, List.length_tail, List.length_cons, List.length_nil]; omega
  unfold LinkRec.placeNotice
  split; exact h
  split; exact Nat.le_trans (Nat.le_of_eq (List.length_map _)) h
  split; exact h
  split; exact h
  split; exact h
  split
  · simp only [List.length_append, List.length_cons, List.length_nil]; omega
  · exact full

theorem LinkRec.giveBack_bound (x : Slot) (l : LinkRec) (h : l.replies.length ≤ 8) (g : l.notices.length ≤ 32) :
    (l.giveBack x).replies.length ≤ 8 ∧ (l.giveBack x).notices.length ≤ 32 := by
  unfold LinkRec.giveBack
  split
  · exact ⟨by simp only [List.length_take]; omega, g⟩
  · exact ⟨h, by simp only [List.length_take]; omega⟩
  all_goals exact ⟨h, g⟩

/-! ## LIST frames -/

/-- A LIST frame placed touches the reply queue and the list context alone. -/
theorem LinkRec.placeListFrame_only (l : LinkRec) :
    l.placeListFrame = { l with replies := l.placeListFrame.replies, listCtx := l.placeListFrame.listCtx } := by
  unfold LinkRec.placeListFrame LinkRec.placeReply
  repeat' split
  all_goals rfl

theorem LinkRec.placeListFrame_bound (l : LinkRec) (h : l.replies.length ≤ 8) : l.placeListFrame.replies.length ≤ 8 := by
  unfold LinkRec.placeListFrame
  split; exact h
  split; exact h
  split
  · next g => exact Nat.le_trans (LinkRec.placeReply_length _ _) g
  · exact h

/-- Without a list context, or with no place come free, no LIST frame is placed. -/
theorem LinkRec.listTakes_self {before : Nat} {l : LinkRec} (h : l.listCtx = none ∨ before ≤ l.replies.length) :
    l.listTakes before = l := by
  unfold LinkRec.listTakes
  split
  · next g => rcases h with h | h
              · simp [h] at g
              · omega
  · rfl

theorem LinkRec.buffer_bound (x : RxFrame) (l : LinkRec) (h : l.rx.length ≤ 2) : (l.buffer x).rx.length ≤ 2 := by
  unfold LinkRec.buffer; split <;> simp <;> omega

end Sys2Proof.Machine
end

