-- ==== Sys2Proof/WellFormed.lean ====
section
/-! DEFINITION. When a command's operands are ones the manual allows. `exec` answers on every command;
these checks say which of them a sender may give. -/
namespace Sys2Proof

/-- The counts of a sample are 0 to 4095 (01, 1.1: the raw field). -/
def countsWellFormed (raw : PerChan Nat) : Bool :=
  let ok := fun n => decide (n ≤ 4095)
  let idx := fun (t : PerIdx Nat) => ok t.n1 && ok t.n2 && ok t.n3 && ok t.n4 && ok t.n5 && ok t.n6 && ok t.n7 && ok t.n8
  idx raw.h && idx raw.p && ok raw.b.a1 && ok raw.b.a2 && ok raw.b.a3 && ok raw.b.a4 &&
    ok raw.r3 && ok raw.r4 && ok raw.j && ok raw.s && ok raw.t && ok raw.g && ok raw.v &&
    ok raw.d1 && ok raw.d2 && ok raw.d3 && ok raw.d4

/-- A PT row is 1 to 16 (R22's table). -/
def rowWellFormed (row : Nat) : Bool := decide (1 ≤ row) && decide (row ≤ 16)

/-- The data field of a frame is 8, 12 or 16 bytes long (11, opening). -/
def dataWellFormed (f : BusFrame) : Bool := f.data.length == 8 || f.data.length == 12 || f.data.length == 16

/-- The operands of a command are ones the manual allows. -/
def Instr.wellFormed : Instr → Bool
  | .measurementSample raw => countsWellFormed raw
  | .leaseExpiry row => rowWellFormed row
  | .reportGapExpiry row => rowWellFormed row
  | .receiveFrame _ f => dataWellFormed f
  | .motionFrame => true
  | .staleExpiry => true
  | .demandLostExpiry => true
  | .coilCheck _ => true
  | .brakePeriod => true
  | .establishmentTimeout => true
  | .creepTimerExpiry => true
  | .levellingPeriod => true
  | .articulationPeriod => true
  | .rollCallWindowExpiry => true
  | .assert _ => true
  | .amend _ => true
  | .release _ => true
  | .releaseAll _ => true
  | .lookup _ => true
  | .list _ => true
  | .listFrame _ => true
  | .reportBegin _ => true
  | .reportEntry _ => true
  | .overrideOrphan _ => true
  | .overrideZone _ => true
  | .overrideRollCall _ => true
  | .overrideAcknowledge _ => true
  | .presence _ => true
  | .setRideLevel _ => true
  | .configWrite _ => true
  | .configDiscard _ => true
  | .configCommit _ => true
  | .bankWriteComplete => true
  | .restart _ => true
  | .commandedReset _ => true
  | .diagnosticQuery _ => true
  | .restraintRecompute => true
  | .restraintRepeat => true
  | .holdFaultTimerExpiry => true
  | .holdRequestedChange => true
  | .zoneRestraintUpdate _ => true
  | .levelFreezeChange => true
  | .loweringTimerExpiry _ => true
  | .risingTimerExpiry _ => true
  | .restoreTimerExpiry => true
  | .supplyDip => true
  | .leaveReset => true
  | .frameTransmitted _ => true
  | .statusPageTimer => true
  | .transmitError _ => true
  | .receiveError _ => true
  | .busOffRecovery _ => true
  | .supplyRise => true
  | .logicStateLoss => true
  | .tagCentrePublication => true

end Sys2Proof
end

