-- ==== Sys2Proof/Laws/PerInstr.lean ====
section
/-! SUPPORT. What the operands of each command may be, one lemma for each constructor of Instr: `Fields`. -/
namespace Sys2Proof.Laws

/-- The operands a sender may give: counts up to 4095 on every channel, a PT row from 1 to 16, a data field of 8, 12 or
16 bytes; every other operand is allowed. -/
def Fields.Statement (i : Instr) : Prop :=
  match i with
  | .measurementSample raw => i.wellFormed = true ↔ ∀ c : Chan, raw.get c ≤ 4095
  | .leaseExpiry row => i.wellFormed = true ↔ 1 ≤ row ∧ row ≤ 16
  | .reportGapExpiry row => i.wellFormed = true ↔ 1 ≤ row ∧ row ≤ 16
  | .receiveFrame _ f => i.wellFormed = true ↔ f.data.length = 8 ∨ f.data.length = 12 ∨ f.data.length = 16
  | _ => i.wellFormed = true

theorem Fields.measurementSample (raw : PerChan Nat) : Fields.Statement (.measurementSample raw) := by
  simp only [Fields.Statement, Instr.wellFormed, countsWellFormed, Bool.and_eq_true, decide_eq_true_eq]
  constructor
  · intro h c
    rcases c with i | i | a | _ | _ | _ | _ | _ | _ | _ | _ | _ | _ | _
    · cases i <;> simp_all [PerChan.get, PerIdx.get]
    · cases i <;> simp_all [PerChan.get, PerIdx.get]
    · cases a <;> simp_all [PerChan.get, PerAxle.get]
    all_goals simp_all [PerChan.get]
  · intro h
    have hh := fun i => h (.h i)
    have hp := fun i => h (.p i)
    have hb := fun a => h (.b a)
    simp only [PerChan.get] at hh hp hb
    simp only [and_assoc]
    exact ⟨hh .n1, hh .n2, hh .n3, hh .n4, hh .n5, hh .n6, hh .n7, hh .n8, hp .n1, hp .n2, hp .n3, hp .n4, hp .n5, hp .n6,
      hp .n7, hp .n8, hb .a1, hb .a2, hb .a3, hb .a4, h .r3, h .r4, h .j, h .s, h .t, h .g, h .v, h .d1, h .d2, h .d3, h .d4⟩

theorem Fields.leaseExpiry (row : Nat) : Fields.Statement (.leaseExpiry row) := by
  simp [Fields.Statement, Instr.wellFormed, rowWellFormed]

theorem Fields.reportGapExpiry (row : Nat) : Fields.Statement (.reportGapExpiry row) := by
  simp [Fields.Statement, Instr.wellFormed, rowWellFormed]

theorem Fields.receiveFrame (l : Link) (f : BusFrame) : Fields.Statement (.receiveFrame l f) := by
  simp [Fields.Statement, Instr.wellFormed, dataWellFormed, or_assoc]

theorem Fields.motionFrame : Fields.Statement .motionFrame := rfl
theorem Fields.staleExpiry : Fields.Statement .staleExpiry := rfl
theorem Fields.demandLostExpiry : Fields.Statement .demandLostExpiry := rfl
theorem Fields.coilCheck (found : CoilSenses) : Fields.Statement (.coilCheck found) := rfl
theorem Fields.brakePeriod : Fields.Statement .brakePeriod := rfl
theorem Fields.establishmentTimeout : Fields.Statement .establishmentTimeout := rfl
theorem Fields.creepTimerExpiry : Fields.Statement .creepTimerExpiry := rfl
theorem Fields.levellingPeriod : Fields.Statement .levellingPeriod := rfl
theorem Fields.articulationPeriod : Fields.Statement .articulationPeriod := rfl
theorem Fields.rollCallWindowExpiry : Fields.Statement .rollCallWindowExpiry := rfl
theorem Fields.assert (l : Link) : Fields.Statement (.assert l) := rfl
theorem Fields.amend (l : Link) : Fields.Statement (.amend l) := rfl
theorem Fields.release (l : Link) : Fields.Statement (.release l) := rfl
theorem Fields.releaseAll (l : Link) : Fields.Statement (.releaseAll l) := rfl
theorem Fields.lookup (l : Link) : Fields.Statement (.lookup l) := rfl
theorem Fields.list (l : Link) : Fields.Statement (.list l) := rfl
theorem Fields.listFrame (l : Link) : Fields.Statement (.listFrame l) := rfl
theorem Fields.reportBegin (l : Link) : Fields.Statement (.reportBegin l) := rfl
theorem Fields.reportEntry (l : Link) : Fields.Statement (.reportEntry l) := rfl
theorem Fields.overrideOrphan (l : Link) : Fields.Statement (.overrideOrphan l) := rfl
theorem Fields.overrideZone (l : Link) : Fields.Statement (.overrideZone l) := rfl
theorem Fields.overrideRollCall (l : Link) : Fields.Statement (.overrideRollCall l) := rfl
theorem Fields.overrideAcknowledge (l : Link) : Fields.Statement (.overrideAcknowledge l) := rfl
theorem Fields.presence (l : Link) : Fields.Statement (.presence l) := rfl
theorem Fields.setRideLevel (l : Link) : Fields.Statement (.setRideLevel l) := rfl
theorem Fields.configWrite (l : Link) : Fields.Statement (.configWrite l) := rfl
theorem Fields.configDiscard (l : Link) : Fields.Statement (.configDiscard l) := rfl
theorem Fields.configCommit (l : Link) : Fields.Statement (.configCommit l) := rfl
theorem Fields.bankWriteComplete : Fields.Statement .bankWriteComplete := rfl
theorem Fields.restart (l : Link) : Fields.Statement (.restart l) := rfl
theorem Fields.commandedReset (supplyGood : Bool) : Fields.Statement (.commandedReset supplyGood) := rfl
theorem Fields.diagnosticQuery (l : Link) : Fields.Statement (.diagnosticQuery l) := rfl
theorem Fields.restraintRecompute : Fields.Statement .restraintRecompute := rfl
theorem Fields.restraintRepeat : Fields.Statement .restraintRepeat := rfl
theorem Fields.holdFaultTimerExpiry : Fields.Statement .holdFaultTimerExpiry := rfl
theorem Fields.holdRequestedChange : Fields.Statement .holdRequestedChange := rfl
theorem Fields.zoneRestraintUpdate (z : Zone) : Fields.Statement (.zoneRestraintUpdate z) := rfl
theorem Fields.levelFreezeChange : Fields.Statement .levelFreezeChange := rfl
theorem Fields.loweringTimerExpiry (z : Zone) : Fields.Statement (.loweringTimerExpiry z) := rfl
theorem Fields.risingTimerExpiry (z : Zone) : Fields.Statement (.risingTimerExpiry z) := rfl
theorem Fields.restoreTimerExpiry : Fields.Statement .restoreTimerExpiry := rfl
theorem Fields.supplyDip : Fields.Statement .supplyDip := rfl
theorem Fields.leaveReset : Fields.Statement .leaveReset := rfl
theorem Fields.frameTransmitted (l : Link) : Fields.Statement (.frameTransmitted l) := rfl
theorem Fields.statusPageTimer : Fields.Statement .statusPageTimer := rfl
theorem Fields.transmitError (l : Link) : Fields.Statement (.transmitError l) := rfl
theorem Fields.receiveError (l : Link) : Fields.Statement (.receiveError l) := rfl
theorem Fields.busOffRecovery (l : Link) : Fields.Statement (.busOffRecovery l) := rfl
theorem Fields.supplyRise : Fields.Statement .supplyRise := rfl
theorem Fields.logicStateLoss : Fields.Statement .logicStateLoss := rfl
theorem Fields.tagCentrePublication : Fields.Statement .tagCentrePublication := rfl

end Sys2Proof.Laws
end

