-- ==== Sys2Proof/Laws/Requests.lean ====
section
/-! SUPPORT. What the shared taking of a request does, case by case (R23, R48, R49), and what an expiry and a part in
service do. -/
namespace Sys2Proof.Machine
open Sys2Proof.Safety

@[simp] theorem whenInService_next (s : State) (f : State → State) (h : s.service = .inService) :
    whenInService s f = .next (f s) := by simp [whenInService, h]

theorem whenInService_other (s : State) (f : State → State) (h : s.service ≠ .inService) : whenInService s f = .next s := by
  simp [whenInService, h]


/-- No request is taken while none may be. -/
theorem serve_waits {s : State} {l : Link} (mine : Request → Bool) (act : Nat → PtCfg → Request → State → State)
    (h : s.canTake l = false) : serve l mine act s = s := by simp [serve, h]

/-- A request that another command serves stays where it is. -/
theorem serve_other {s : State} {l : Link} {q : Request} {rest : List RxFrame} (mine : Request → Bool)
    (act : Nat → PtCfg → Request → State → State) (h : s.oldestRequest l = some (q, rest)) (m : mine q = false) :
    serve l mine act s = s := by simp [serve, h, m]

/-- The participants do not depend on the links' records. -/
@[simp] theorem participant_onLink (s : State) (l m : Link) (f : LinkRec → LinkRec) (n : Nat) :
    (s.onLink l f).participant m n = s.participant m n := by cases l <;> rfl

/-- A request from no participant is refused. -/
theorem serve_stranger {s : State} {l : Link} {q : Request} {rest : List RxFrame} {mine : Request → Bool}
    (act : Nat → PtCfg → Request → State → State) (c : s.canTake l = true) (h : s.oldestRequest l = some (q, rest))
    (p : s.participant l q.source = none) (m : mine q = true) :
    serve l mine act s = fillAll (refuse l q .notParticipant (s.onLink l fun r => { r with rx := rest })) := by
  simp [serve, c, h, m, p]

/-- A request that is taken leaves its buffer, its participant is heard, and its rule acts. -/
theorem serve_taken {s : State} {l : Link} {q : Request} {rest : List RxFrame} {n : Nat} {row : PtCfg} {mine : Request → Bool}
    (act : Nat → PtCfg → Request → State → State) (t : Taken s l q rest n row) (m : mine q = true) :
    serve l mine act s = fillAll (act n row q (hear n row.lease (s.onLink l fun r => { r with rx := rest }))) := by
  obtain ⟨-, c, h, p⟩ := t
  simp [serve, c, h, m, p]

end Sys2Proof.Machine
end

