-- ==== Sys2Proof/Tests/Slice0.lean ====
section
/-! SUPPORT. Tests of single commands on the figures the manual works out, the smoke test of the well-formedness checks,
and for each statement of Certificates/Slice0 a state and operands that meet its hypotheses. -/
namespace Sys2Proof.Tests
open Sys2Proof.Machine Sys2Proof.Safety

/-! ## States and requests -/

/-- The state a command leads to. -/
def after (c : Instr) (s : State) : State :=
  match exec c s with
  | .next t => t
  | .fault _ => s
  | .refused _ => s

/-- A fitted channel that is VALID with a figure. -/
def chanAt (v : Int) : ChanRec := { ChanRec.reset with st := some .valid, value := some v }

/-- P channels of the service-braking case, a gradient of 80, 24 V and full reservoirs. -/
def usualFigure : Chan → Int
  | .h _ => 0
  | .p i => match i with
    | .n1 => 540 | .n2 => 560 | .n3 => 480 | .n4 => 470 | .n5 => 520 | .n6 => 530 | .n7 => 300 | .n8 => 320
  | .b _ => 490
  | .r3 => 700
  | .r4 => 850
  | .j => 0
  | .s => 0
  | .t => 0
  | .g => 80
  | .v => 240
  | .d1 => 200 | .d2 => 200 | .d3 => 200 | .d4 => 200

/-- Counts that read 0 mm, 0 kPa of brake pressure, full reservoirs and 24 V. -/
def usualCounts : PerChan Nat := .make fun c => match c with
  | .h _ => 2276 | .p _ => 1705 | .b _ => 205 | .r3 => 2606 | .r4 => 2906 | .j => 2048 | .s => 2048 | .t => 2048
  | .g => 2048 | .v => 2400 | .d1 => 3000 | .d2 => 3000 | .d3 => 3000 | .d4 => 3000

/-- The part at a stop, 1 s after reset: standstill, the stop hold ESTABLISHED at 490 kPa, the roll call closed. -/
def held : State :=
  { State.reset with
    now := 1000, service := .inService
    periods := { sample := some 1010, coil := some 1010, brake := some 1010, levelling := some 1100, articulation := some 1020 }
    chans := .make fun c => chanAt (usualFigure c)
    motion := { MotionRec.reset with freshness := .fresh, speedState := .standstill, gear := .forward, rolling := some 1, acceptedAt := some 1000, timer := some 1100 }
    it := { ItRec.reset with rollCall := .closed }
    shc := { ShcRec.reset with state := .established, target2 := 490, target3 := 490, target4 := 490, holdRequested := true }
    lu := { LuRec.reset with corners := .make fun _ => { CornerRec.reset with filtered := some 0 } }
    sam := { SamRec.reset with sampled := true }
    au := { AuRec.reset with seeded := true }
    pageTimer := some 1050 }

/-- The resolver has taken the inputs of the moment and published their record, with the line and the telltales commanded
from it. -/
def published (s : State) : State :=
  let rr := { s.rr with view := s.rrInputs, noted := [], due := [] }
  let r := rr.restraint
  { s with
    rr := { rr with published := some r, repeatTimer := some 2000 }
    act := { s.act with
      line := { s.act.line with command := some (if r.driveInhibit then .asserted else .clear) }
      amber := { s.act.amber with command := some (if r.amber then .on else .off) }
      red := { s.act.red with command := some (if r.red then .on else .off) } } }

/-- Level freeze is published, and the levelling unit has still to take it. -/
def freezing (s : State) : State :=
  { published s with rr := { (published s).rr with
      toLu := [true], published := (published s).rr.published.map fun r => { r with levelFreeze := true } } }

/-- The part on the road at a speed in tenths of km/h. -/
def moving (v : Nat) (s : State) : State :=
  { s with motion := { s.motion with speed := v, speedState := .moving }, shc := .reset }

def requestOf (node : Nat) (d : List Nat) : Request := { source := node, data := d.map byteOf }

/-- A request waits in a link's first buffer. -/
def asked (l : Link) (node : Nat) (d : List Nat) (s : State) : State :=
  s.onLink l fun r => { r with rx := [⟨.request, node, d.map byteOf⟩] }

/-- The delivered PT row n. -/
def rowAt (n : Nat) : PtCfg := (delivered.row n).getD unusedRow

/-- The reply in the first slot of a link. -/
def replyOn (s : State) (l : Link) : Option Reply :=
  match (s.link l).slot1, (s.link l).slot2 with
  | .waiting (.reply r), _ => some r
  | _, .waiting (.reply r) => some r
  | _, _ => none

def codeOn (s : State) (l : Link) : Option ReplyCode := (replyOn s l).map Reply.code

/-- A DOOR entry of door node 23 (PT row 5, door 3) with an opening. -/
def door (o : Opening) : Entry :=
  { owner := 5, tag := 0, kind := .door, zone := .rear, effects := mandatory .door, state := .active, orphaned := false
    depth := none, opening := some o, seq := 1 }

/-- A KNEEL entry of the driver console (PT row 8) over FRONT with depth 70. -/
def kneel : Entry :=
  { owner := 8, tag := 0, kind := .kneel, zone := .front, effects := mandatory .kneel, state := .active, orphaned := false
    depth := some 70, opening := none, seq := 2 }

/-- A SERVICE entry of the service tool (PT row 2) with LEVEL_FREEZE. -/
def serviceEntry : Entry :=
  { owner := 2, tag := 1, kind := .service, zone := .whole
    effects := { mandatory .service with levelFreeze := true }, state := .active, orphaned := false, depth := none
    opening := none, seq := 3 }

/-- A RAMP entry of the ramp node (PT row 7) with TAG_CENTRE. -/
def rampEntry : Entry :=
  { owner := 7, tag := 0, kind := .ramp, zone := .rear
    effects := { mandatory .ramp with tagCentre := true }, state := .active, orphaned := false, depth := none
    opening := some .closed, seq := 4 }

def withEntries (es : List Entry) (s : State) : State := { s with it := { s.it with entries := es, nextSeq := 4 } }

/-- A full table of 24 entries. -/
def kneels : List Entry := (List.range 24).map fun i => { kneel with owner := 1 + i / 7, tag := i % 7, seq := i + 1 }

/-- Door node 23 is in a report of n entries. -/
def reporting (n : Nat) : State :=
  { held with pt := setNth held.pt 5 fun v => { v with report := some (newReport n 900 7 2) } }

/-- A kneel waits for a hold that is APPLYING. -/
def establishing : State :=
  { withEntries [{ kneel with state := .pending .holdNotEstablished }] held with
    shc.state := .applying, shc.establishTimer := some 1600 }

/-- The roll call has still to open, and two entries wait for it. -/
def awaitingRollCall : State :=
  { withEntries [{ door .opened with state := .pending .rollCall }, { kneel with state := .pending .rollCall }] held with
    it.rollCall := .awaiting }

def zoneIn (st : ZoneState) (target : Nat) (timer : Timer) : ZoneRec :=
  { ZoneRec.reset with state := st, depth := target, target := target, timer := timer }

def identity (type source : Nat) : Ident := BitVec.ofNat 29 (type * 2097152 + source * 128)

/-- A motion frame's eight bytes. -/
def motionBytes (v brake accel gear rolling : Nat) : List Byte :=
  twoBytes v ++ twoBytes brake ++ twoBytes accel ++ [byteOf (gear * 16 + rolling), 0]

def framed (d : List Byte) (s : State) : State := { s with chassis.rx := [⟨.motion, 10, d⟩] }

def allOk : CoilSenses :=
  { m := .make fun _ => .ok, c := .make fun _ => (.ok, .ok), dp := (.ok, .ok), dn := (.ok, .ok), tl := .ok }

/-- A link whose first slot holds a status page in transmission. -/
def sendingPage (s : State) : State := { s with chassis.slot1 := .sending (.status 3) }

/-! ## Well-formedness refuses each ill-formed operand -/

theorem test_wellFormed_count_above_4095 :
    (Instr.measurementSample (usualCounts.set .d4 4096)).wellFormed = false ∧
      (Instr.measurementSample (usualCounts.set (.h .n1) 4096)).wellFormed = false ∧
      (Instr.measurementSample (usualCounts.set .d4 4095)).wellFormed = true := by decide

theorem test_wellFormed_row_outside_1_to_16 :
    (Instr.leaseExpiry 0).wellFormed = false ∧ (Instr.leaseExpiry 17).wellFormed = false ∧
      (Instr.reportGapExpiry 0).wellFormed = false ∧ (Instr.reportGapExpiry 17).wellFormed = false ∧
      (Instr.leaseExpiry 16).wellFormed = true := by decide

theorem test_wellFormed_data_length :
    (Instr.receiveFrame .body ⟨identity 16 40, zeros 7⟩).wellFormed = false ∧
      (Instr.receiveFrame .body ⟨identity 16 40, zeros 9⟩).wellFormed = false ∧
      (Instr.receiveFrame .body ⟨identity 16 40, zeros 8⟩).wellFormed = true := by decide

/-- No word of the table spells a command: the table gives no row any bits. -/
theorem test_decode_none : decodeTableWord 0 0 = none ∧ decodeTableWord 16 65535 = none := by decide

/-! ## Single commands -/

/-- 1.2: raw 2500 on H3 is 13 mm, and 14 mm with a gain trim of 1040 switched on. -/
theorem test_calibration_worked :
    calibrated (chanRange (.h .n3)) (defaultCalib (.h .n3)) 2500 = 13 ∧
      calibrated (chanRange (.h .n3)) { defaultCalib (.h .n3) with trim := 1040, gainOn := true } 2500 = 14 := by decide

/-- 1.3, the shared height channel: HELD at 10 ms, FAILED at 500 ms, VALID again after 1000 ms, and the counts at which a
figure begins and ceases to be used. -/
theorem test_measurementSample_worked :
    let h5 := fun (r : ChanRec) (n : Nat) =>
      ((after (.measurementSample (usualCounts.set (.h .n5) n)) { held with chans := held.chans.set (.h .n5) r }).chans.get (.h .n5))
    let r := h5 (chanAt (-2)) 12
    (r.st, r.value, r.failTime, r.wasOut) = (some .held, some (-2), 10, true) ∧
      (h5 { r with failTime := 490 } 12).st = some .failed ∧ (h5 { r with failTime := 480 } 12).st = some .held ∧
      (h5 { r with st := some .failed, failTime := 500, recTime := 990 } 2268).value = some 0 ∧
      (h5 (chanAt 0) 39).st = some .held ∧ (h5 (chanAt 0) 40).st = some .valid ∧ (h5 (chanAt 0) 4055).st = some .valid ∧
      (h5 (chanAt 0) 4056).st = some .held := by decide +kernel

/-- R176, R122: 17.4 V begins SUPPLY_LOW and releases the modulators; 17.5 V does not. -/
theorem test_measurementSample_supply :
    let low := after (.measurementSample (usualCounts.set .v 1738)) held
    low.sam.supplyLow = true ∧ (low.act.m.get .a1).release = true ∧
      (after (.measurementSample (usualCounts.set .v 1748)) held).sam.supplyLow = false := by decide +kernel

/-- R12: a frame with a new rolling counter is accepted; the same counter again is repeated; 150.1 km/h is refused. -/
theorem test_motionFrame :
    let s := after .motionFrame (framed (motionBytes 250 300 10 2 2) held)
    (s.motion.speed, s.motion.brake, s.motion.speedState, s.motion.rolling) = (250, 300, .moving, some 2) ∧
      (after .motionFrame (framed (motionBytes 250 300 10 2 1) held)).motion.repeated = 1 ∧
      (after .motionFrame (framed (motionBytes 1501 0 0 2 2) held)).motion.refused = 1 := by decide

theorem test_staleExpiry :
    let s := after .staleExpiry held
    (s.motion.freshness, s.motion.speedState, s.motion.timer, s.now) = (.stale, .unknown, some 1300, 1100) := by decide

/-- R119: the axles that carry no hold pressure are released. -/
theorem test_demandLostExpiry :
    let s := after .demandLostExpiry { held with motion.freshness := .stale }
    ((s.act.m.get .a1).release, (s.act.m.get .a2).release, s.motion.freshness) = (true, false, .demandLost) := by decide

/-- R18: the third check in a row fails the channel; a short is not sensed on a RELEASED one, nor on a valve in HOLD. -/
theorem test_coilCheck :
    let s := after (.coilCheck { allOk with m := allOk.m.set .a1 .opened })
      { held with act.m := held.act.m.set .a1 { ActRec.reset with persist := 2 } }
    (s.act.m.get .a1).failed = true ∧ (s.act.m.get .a1).persist = 3 ∧
      ((after (.coilCheck { allOk with m := allOk.m.set .a1 .shorted }) held).act.m.get .a1).persist = 0 ∧
      (let one := fun (v : Valve) => ((after (.coilCheck { allOk with c := allOk.c.set .a1L (.shorted, .ok) })
        { held with act.c := held.act.c.set .a1L { held.act.c.get .a1L with command := some v, release := false } }).act.c.get .a1L).persist
       (one .hold, one .fill) = (0, 1)) := by decide

/-- R173, R174: a lock that fails before the first articulation period has the damping outputs sent to DP and DN, with TS
and TL commanded. -/
theorem test_coilCheck_lock :
    let s := after (.coilCheck { allOk with tl := .opened }) { held with act.tl := { held.act.tl with persist := 2 } }
    (held.act.dp.command, held.act.dn.command) = (none, none) ∧
      (s.act.dp.command, s.act.dn.command, s.act.ts.command, s.act.tl.command) = (some 1000, some 1000, some 0, some .engaged) ∧
      (s.au.tag, s.au.fault, s.act.dp.driven, s.act.dn.driven) = (.fault, some .lockFailed, true, true) := by decide

/-- Chapter 6, service braking on a bend: forces, pressures and outputs. -/
theorem test_brakePeriod_worked :
    let s := { moving 250 held with chans := held.chans.set .j (chanAt 125), motion := { (moving 250 held).motion with brake := 500 } }
    let b := (after .brakePeriod s).bdu
    (b.target, b.bias) = (300, 85) ∧ allAxles.map (fun a => (b.axles.get a).load) = [some 6400, some 6800, some 7600, some 3800] ∧
      allAxles.map (fun a => (b.axles.get a).force) = [1957, 2080, 2522, 1261] ∧
      allAxles.map (fun a => (b.axles.get a).output) = [545, 492, 590, 450] := by decide

/-- Chapter 6, full pedal: every axle saturates; a held stop with a light pedal: A4 takes the hold target. -/
theorem test_brakePeriod_clamp_and_hold :
    let s := { held with chans := held.chans.set .j (chanAt 125), motion := { held.motion with brake := 1000 } }
    let b := (after .brakePeriod s).bdu
    let c := (after .brakePeriod { s with motion := { s.motion with brake := 500 } }).bdu
    allAxles.map (fun a => ((b.axles.get a).pressure, (b.axles.get a).saturated)) = [(850, true), (850, true), (850, true), (850, true)] ∧
      allAxles.map (fun a => (c.axles.get a).output) = [545, 492, 590, 490] := by decide

/-- R101, R109: the target is raised to 150 as long as the published field is yes, at standstill too, but not once the SHC
has made its transition at that standstill. -/
theorem test_brakePeriod_doorAtSpeed :
    let b := fun (d taken : Bool) (h : HoldState) (s : State) => (after .brakePeriod { published s with
      rr.published := (published s).rr.published.map fun r => { r with doorAtSpeed := d }
      shc.state := h, shc.standstillTaken := taken }).bdu.target
    (b true false .arming (moving 31 held), b false false .arming (moving 31 held), b true false .applying (moving 31 held)) =
        (150, 0, 150) ∧
      (b true false .arming held, b true false .applying held, b true true .applying held) = (150, 150, 0) := by decide

/-- R94: a target of 490 has the mark 441 and 610 the mark 549; at the timeout the hold is in HOLD_FAULT. -/
theorem test_establishmentTimeout :
    (holdMark 490, holdMark 610) = (441, 549) ∧
      (after .establishmentTimeout { held with shc.state := .applying, shc.establishTimer := some 1600 }).shc.state = .holdFault := by decide

/-- R98: the fourth creep expiry brings 790 to 850, and the timer stops. -/
theorem test_creepTimerExpiry :
    let s := after .creepTimerExpiry { held with shc := { held.shc with target2 := 790, target3 := 790, target4 := 790, creep := true, creepTimer := some 1300 } }
    (s.shc.target2, s.shc.ceiling, s.shc.creepTimer, s.rr.latest.ceiling) = (850, true, none, true) := by decide

/-- Chapter 7, a sunken corner: held by PERSISTENCE at 1900 ms, filled at 2000 ms, held for braking above 200 cm/s². -/
theorem test_levellingPeriod_worked :
    let go := fun (p target : Nat) => (after .levellingPeriod
      { (moving 400 held).setCorner .a3R { CornerRec.reset with filtered := some (-224), persist := p } with bdu.target := target }).corner .a3R
    ((go 1800 0).persist, (go 1800 0).valve, (go 1800 0).reason) = (1900, .hold, some .persistence) ∧
      ((go 1900 0).persist, (go 1900 0).valve, (go 1900 0).reason) = (2000, .fill, none) ∧
      ((go 2000 240).persist, (go 2000 240).valve, (go 2000 240).reason) = (0, .hold, some .braking) := by decide

/-- Chapter 9, folding to the right at 25 km/h. -/
theorem test_articulationPeriod_damping :
    let go := fun (j : Int) => (after .articulationPeriod { moving 250 held with chans := held.chans.set .j (chanAt j) }).au
    [(-200 : Int), -250, -262, -266, -272].map (fun j => ((go j).dpOut, (go j).dnOut, (go j).foldLimit, (go j).torque)) =
      [(488, 488, false, 1000), (488, 795, false, 1000), (488, 1000, true, 1000), (488, 1000, true, 600), (488, 1000, true, 0)] := by
  decide

/-- R168, R170: a steering target of −71 and a clamped one; CENTRING steps 30, 14, 0 and centres. -/
theorem test_articulationPeriod_tag :
    let steer := fun (v : Nat) (j : Int) => (after .articulationPeriod
      { moving v held with chans := held.chans.set .j (chanAt j), au := { held.au with tag := .steering } }).au
    let centre := fun (c : Int) (t : Int) => (after .articulationPeriod (published (withEntries [rampEntry]
      { held with au := { held.au with tag := .centring, commanded := c }, chans := held.chans.set .t (chanAt t) }))).au
    ((steer 200 285).target, (steer 200 285).commanded) = (-71, -16) ∧ ((steer 50 500).target, (steer 50 500).clamp) = (-120, true) ∧
      ((centre 30 30).commanded, (centre 30 30).tag) = (14, .centring) ∧ ((centre 14 3).commanded, (centre 14 3).tag) = (0, .centred) := by
  decide

theorem test_leaseExpiry :
    let s := after (.leaseExpiry 5) { withEntries [door .opened] held with pt := setNth held.pt 5 fun v => { v with presence := .present, deadline := some 1200 } }
    ((s.vol 5).presence, s.it.entries.map Entry.orphaned, s.now) = (.silent, [true], 1200) := by decide

/-- R42: each expected row that has not reported gets its recovery entry. -/
theorem test_rollCallWindowExpiry :
    let s := after .rollCallWindowExpiry
      { held with it := { ItRec.reset with rollCall := .opened, window := some 3000 }, pt := setNth held.pt 5 fun v => { v with expected := true } }
    (s.it.rollCall, s.it.entries, s.now) = (.closed, [recoveryEntry 5 1], 3000) := by decide

/-- R63: a report whose next frame does not come within 200 ms is abandoned. -/
theorem test_reportGapExpiry :
    let s := after (.reportGapExpiry 5) { held with pt := setNth held.pt 5 fun v => { v with report := some (newReport 2 1000 7 9) } }
    ((s.vol 5).report, s.now, replyOn s .body) = (none, 1200, some (abandonReply 23 (newReport 2 1000 7 9))) := by decide

/-- R188: a third frame is lost to overrun; R187: a motion frame is not accepted from the body link. -/
theorem test_receiveFrame :
    let f : BusFrame := ⟨identity 16 60, [5, 1, 0, 0, 0, 0, 0, 0]⟩
    let full := asked .chassis 60 [5] (asked .chassis 60 [5] held)
    let s := after (.receiveFrame .chassis f) { full with chassis.rx := full.chassis.rx ++ full.chassis.rx }
    (s.chassis.rx.length, s.chassis.overruns) = (2, 1) ∧
      (after (.receiveFrame .chassis f) held).chassis.rx = [⟨.request, 60, f.data⟩] ∧
      (after (.receiveFrame .body ⟨identity 1 10, zeros 8⟩) held).body.rx = [] ∧
      (after (.receiveFrame .chassis ⟨identity 1 10, zeros 8⟩) held).chassis.rx.length = 1 := by decide

/-- R52, R54: a KNEEL of depth 20 is granted at an established hold with depth 30 and the clamped mark. -/
theorem test_assert :
    let s := after (.assert .body) (asked .body 40 [1, 7, 0, 3, 64, 1, 20, 0] held)
    s.it.entries.map (fun e => (e.kind, e.state, e.depth, e.owner)) = [(.kneel, .active, some 30, 8)] ∧
      (replyOn s .body).map (fun r => (r.code, r.marks.clamped, r.ref)) = some (.done, true, 7) := by decide

theorem test_amend :
    let s := after (.amend .body) (asked .body 40 [2, 7, 0, 0, 64, 0, 91, 0] (withEntries [kneel] held))
    (s.it.entries.map Entry.depth, codeOn s .body) = ([some 90], some .done) := by decide

/-- R57: an OPEN door is not released; a CLOSED one is. -/
theorem test_release :
    let go := fun o => after (.release .body) (asked .body 23 [3, 1, 0, 0, 0, 0, 0, 0] (withEntries [door o] held))
    ((go .opened).it.entries.length, codeOn (go .opened) .body) = (1, some (.refused .doorOpen)) ∧
      ((go .closed).it.entries.length, codeOn (go .closed) .body) = (0, some .done) := by decide

theorem test_releaseAll :
    let s := after (.releaseAll .body) (asked .body 23 [4, 1] (withEntries [door .opened, { door .closed with tag := 1, seq := 2 }] held))
    (s.it.entries.length, (replyOn s .body).map fun r => (r.code, r.tail)) = (1, some (.donePartly, .releaseAll 1 1)) := by decide

theorem test_lookup :
    let s := after (.lookup .body) (asked .body 23 [5, 1, 3] (withEntries [door .opened] held))
    (replyOn s .body).map (fun r => (r.code, r.marks.notFound, r.tail)) = some (.done, true, .none) := by decide

/-- R60, R61: two entries are listed in two frames; only the last carries the total. -/
theorem test_list_and_listFrame :
    let s := after (.list .chassis) (asked .chassis 60 [6, 9] (withEntries [door .opened, kneel] held))
    let t := after (.listFrame .chassis) { s with chassis.slot1 := .free }
    (replyOn s .chassis).map (fun r => (r.marks.last, r.total)) = some (false, 0) ∧ s.chassis.listCtx.isSome = true ∧
      (replyOn t .chassis).map (fun r => (r.marks.last, r.total)) = some (true, 2) ∧ t.chassis.listCtx = none := by decide

/-- R62, R64: an empty report completes at once and retires what its sender no longer holds. -/
theorem test_reportBegin :
    let s := after (.reportBegin .body) (asked .body 23 [7, 1, 0] (withEntries [door .closed] held))
    ((s.vol 5).reported, s.it.entries.length, codeOn s .body) = (true, 0, some .done) := by decide

/-- R63, R64: the last entry of a report completes it and creates the entry it restages. -/
theorem test_reportEntry :
    let s := after (.reportEntry .body) (asked .body 23 [8, 2, 0, 1, 0, 0, 0, 3]
      { held with pt := setNth held.pt 5 fun v => { v with report := some (newReport 1 1000 7 2) } })
    ((s.vol 5).reported, s.it.entries.map fun e => (e.kind, e.zone, e.opening)) = (true, [(.door, .rear, some .opened)]) := by decide

/-- R67: the driver console retires an orphaned entry of node 23 on the body link, OPEN as it stands. -/
theorem test_overrideOrphan :
    let s := after (.overrideOrphan .body) (asked .body 40 [9, 1, 1, 0, 0, 0, 23, 1] (withEntries [{ door .opened with orphaned := true }] held))
    (s.it.entries.length, (replyOn s .body).map fun r => (r.code, r.marks.notClosed)) = (0, some (.done, true)) := by decide

theorem test_overrideZone :
    let s := after (.overrideZone .body) (asked .body 40 [9, 1, 2, 0, 0, 1, 0, 0] { held with lu.front := { ZoneRec.reset with state := .stuckLow } })
    (s.lu.front.override, codeOn s .body, s.rr.latest.front.override) = (true, some .done, true) := by decide

theorem test_overrideRollCall :
    (replyOn (after (.overrideRollCall .body) (asked .body 40 [9, 1, 3] held)) .body).map (fun r => (r.code, r.marks.alreadyClosed)) =
      some (.done, true) := by decide

/-- R87: RED clears when no setting condition is in force, and stays while one is. -/
theorem test_overrideAcknowledge :
    let s := published { held with rr.redLatch := true }
    let red := published { held with rr.redLatch := true, au.tag := .fault }
    ((after (.overrideAcknowledge .body) (asked .body 40 [9, 1, 4] s)).rr.redLatch,
      (after (.overrideAcknowledge .body) (asked .body 40 [9, 1, 4] red)).rr.redLatch) = (false, true) := by decide

theorem test_presence :
    let s := after (.presence .body) (asked .body 23 [10, 1] held)
    ((s.vol 5).presence, (s.vol 5).deadline, codeOn s .body) = (.present, some 1500, some .done) := by decide

/-- R72: RAISED is taken at 20.0 km/h and refused above. -/
theorem test_setRideLevel :
    let go := fun v => after (.setRideLevel .body) (asked .body 40 [11, 1, 2] (moving v held))
    ((go 200).lu.ride, ((go 200).corner .a1L).target, codeOn (go 201) .body) = (.raised, 60, some (.refused .moving)) := by decide

/-- R195: 650 is staged for p_max; the value in force stays. -/
theorem test_configWrite :
    let s := after (.configWrite .chassis) (asked .chassis 60 [16, 1, 16, 1, 2, 138, 0, 0] held)
    (s.store.staging, s.cfg.pMax, codeOn s .chassis) = ([(4097, 650)], 850, some .done) := by decide

theorem test_configDiscard :
    (after (.configDiscard .chassis) (asked .chassis 60 [18, 1] { held with store.staging := [(4097, 650)] })).store.staging = [] := by decide

theorem test_configCommit :
    let s := after (.configCommit .chassis) (asked .chassis 60 [17, 1] { held with store.staging := [(4097, 650)] })
    (s.cfg.pMax, s.store.staging, s.store.writing.isSome, s.store.commits) = (650, [], true, held.store.commits) := by decide

/-- R25, R3: a row of another role begins anew, and a channel left unfitted loses its state. -/
theorem test_configCommit_row_and_channel :
    let s := applyCommit { held with
      pt := held.pt.map fun v => { v with expected := true }, store.staging := [(12804, 2), (9985, 0)] }
    ((s.cfg.row 8).map PtCfg.role, (s.vol 8).expected, (s.vol 7).expected, s.chans.d1.st, s.chans.d2.st) =
      (some .rampNode, false, true, none, some .valid) := by decide +kernel

theorem test_bankWriteComplete :
    let s := after .bankWriteComplete { held with store.writing := some { delivered with pMax := 650 } }
    (s.store.secondCurrent, s.store.current.pMax, s.store.commits) = (true, 650, held.store.commits + 1) := by decide

theorem test_restart :
    let s := after (.restart .chassis) (asked .chassis 60 [19, 1] held)
    (s.restart, codeOn s .chassis) = (some ⟨1100, false⟩, some .done) := by decide

theorem test_commandedReset :
    let s := after (.commandedReset true) { held with restart := some ⟨1100, false⟩ }
    (s.service, s.now, s.supply.test, s.supply.commanded) = (.held, 1100, some 1100, true) := by decide

/-- R8, R142: the query clears the flag of a VALID H1 and of the corner mapped to it. -/
theorem test_diagnosticQuery :
    let s := after (.diagnosticQuery .chassis) (asked .chassis 60 [20, 1, 1, 1]
      ({ held with chans := held.chans.set (.h .n1) { chanAt 0 with wasOut := true } }.setCorner .a1L { CornerRec.reset with wasOut := true }))
    ((s.chans.get (.h .n1)).wasOut, (s.corner .a1L).wasOut, s.resetCause) = (false, false, none) := by decide

/-- R74, R75: a pending door asks for the hold, and the record is published with the next count. -/
theorem test_restraintRecompute :
    let s := after .restraintRecompute (rrSignal (withEntries [{ door .opened with state := .pending .notStandstill }] (published { held with shc := .reset })))
    (s.rr.count, s.rr.toShc, s.rr.published.map Restraint.holdRequested, s.act.line.command) = (1, [true], some true, some .clear) := by decide

theorem test_restraintRepeat :
    let s := after .restraintRepeat (published held)
    (s.rr.count, s.rr.repeatTimer, s.body.slot1) = (0, some 3000, .waiting (.restraint (published held).rr.restraint 0)) := by decide

theorem test_holdFaultTimerExpiry :
    let s := after .holdFaultTimerExpiry { published { held with shc.state := .holdFault } with rr.holdFaultTimer := some 4000 }
    (s.rr.holdFaultLong, s.rr.redLatch, s.act.red.command, s.now) = (true, true, some .on, 4000) := by decide

/-- R92: a ramp at 400 is taken up to 490, and one at 520 is kept. -/
theorem test_holdRequestedChange :
    let s := after .holdRequestedChange
      { held with rr.toShc := [true], shc := { held.shc with state := .releasing, holdRequested := false, target2 := 400, target3 := 520, target4 := 400 } }
    (s.shc.state, s.shc.target2, s.shc.target3, s.shc.establishTimer) = (.applying, 490, 520, some 1600) := by decide

/-- Chapter 8, 0 ms: a depth of 70 sends the door side to −70 and the far side to −18, with the loads captured. -/
theorem test_zoneRestraintUpdate_lowers :
    let s := after (.zoneRestraintUpdate .front)
      { held with rr.toFront := [(70, false)], bdu.axles := held.bdu.axles.set .a1 { AxleRec.reset with load := some 6400 } }
    (s.lu.front.state, s.lu.front.timer, (s.corner .a1R).target, (s.corner .a1L).target, (s.corner .a1L).mode, (s.corner .a1L).frozen) =
      (.lowering, some 7000, -70, -18, .kneel, .figure 6400) := by decide

/-- R3, R128: a height channel without a state fails its corner at the zone's entry, and the entries are examined. -/
theorem test_zoneRestraintUpdate_signals :
    let s := after (.zoneRestraintUpdate .front)
      { withEntries [{ kneel with state := .pending .notStandstill }] held with
        rr.toFront := [(70, false)], chans := held.chans.set (.h .n1) ChanRec.reset }
    ((s.corner .a1L).mode, (s.corner .a1R).mode, s.it.entries.map Entry.state) =
      (.failed, .kneel, [.pending .zoneFailed]) := by decide

theorem test_zoneRestraintUpdate_rises :
    let s := after (.zoneRestraintUpdate .front) { held with rr.toFront := [(0, false)], lu.front := zoneIn .down 70 none }
    (s.lu.front.state, s.lu.front.timer) = (.up, none) := by decide

theorem test_levelFreezeChange :
    let s := after .levelFreezeChange (freezing held)
    (s.lu.freeze, (s.corner .a4R).mode, (s.corner .a4R).frozen) = (true, .frozen, .noFigure) := by
  decide +kernel

/-- R127: a zone that lowers after the publication of level freeze finds its corners FROZEN. -/
theorem test_zoneRestraintUpdate_frozen :
    let s := after (.zoneRestraintUpdate .front) { freezing held with rr.toFront := [(70, false)] }
    (s.lu.front.state, (s.corner .a1R).mode, (s.corner .a1R).frozen, (s.corner .a3R).mode) = (.lowering, .frozen, .noFigure, .ride) := by
  decide +kernel

/-- R33: RISE_RESERVE rises as a corner of the zone fails, and either order stands. -/
theorem test_examineInOrder :
    let s := withEntries [{ kneel with state := .pending .airReserve }]
      (held.setCorner .a1L { held.corner .a1L with mode := .failed })
    let v := { s.grantView with riseReserve := false, frontFailed := false }
    let e := fun (o : List GrantSignal) => (examineInOrder o v s).it.entries.map Entry.state
    orders (v.changed s.grantView) = [[.zone .front, .rise], [.rise, .zone .front]] ∧
      e [.zone .front, .rise] = [.pending .zoneFailed] ∧ e [.rise, .zone .front] = [.active] := by decide +kernel

/-- Two kneels wait, one over each zone, and both zones have held a FAILED corner. -/
def waitingFront : Entry := { kneel with state := .pending .zoneFailed }
def waitingRear : Entry := { kneel with tag := 1, zone := .rear, seq := 3, state := .pending .zoneFailed }
def twoKneels (s : State) : State := published (withEntries [waitingFront, waitingRear] s)

/-- R33, R45, R74: the zones lose their FAILED corners at one moment; each examination grants one kneel and is handed on by
itself, so that the first recomputation has the second still to come. -/
theorem test_examineInOrder_each_event :
    let s := twoKneels held
    let t := examineInOrder [.zone .front, .zone .rear] { s.grantView with frontFailed := true, rearFailed := true } s
    let u := after .restraintRecompute (rrSignal t)
    t.rr.noted.map (fun v => v.entries.map RrEntry.active) = [[true, false], [true, true]] ∧
      (u.rr.count, u.rr.view.entries.map RrEntry.active, u.rr.due.length) = (1, [true, false], 1) := by decide +kernel

theorem test_loweringTimerExpiry :
    let s := after (.loweringTimerExpiry .front) { held with lu.front := zoneIn .lowering 70 (some 7000) }
    (s.lu.front.state, s.lu.front.incomplete, s.lu.front.target, s.now) = (.down, true, 70, 7000) := by decide

theorem test_risingTimerExpiry :
    let s := after (.risingTimerExpiry .rear) { held with lu.rear := zoneIn .rising 0 (some 11000) }
    (s.lu.rear.state, s.lu.rear.timer, s.rr.latest.rear.state) = (.stuckLow, none, .stuckLow) := by decide

theorem test_restoreTimerExpiry :
    let s := after .restoreTimerExpiry { held with sam := { held.sam with supplyLow := true, restoreTimer := some 1200 } }
    (s.sam.supplyLow, s.sam.restoreTimer) = (false, none) := by decide

/-- R183, R185: a dip is the cause SUPPLY_DIP 20 ms after the rise; a loss is the cause POWER_ON. -/
theorem test_resets_and_leaveReset :
    let s := after .leaveReset (after .supplyRise (after .supplyDip held))
    let t := after .leaveReset (after .supplyRise (after .logicStateLoss (after .supplyDip held)))
    (s.resetCause, s.resetCount, s.now, s.service, s.rr.count) = (some .supplyDip, 2, 1020, .firstSample, 0) ∧ t.resetCause = some .powerOn := by
  decide

/-- R184: a supply test whose time has come is not stopped by a sag. -/
theorem test_tick_test_over :
    (tick { held with service := .held, supply.test := some 1000 }).supply.test = some 1000 := by decide

theorem test_frameTransmitted :
    let s := after (.frameTransmitted .chassis) { sendingPage held with chassis.txErrors := 9, chassis.due := true, chassis.nextPage := 4 }
    (s.chassis.slot1, s.chassis.txErrors, s.chassis.nextPage) = (.waiting (.status 4), 8, 5) := by decide

/-- R189: with the reply queue full a LIST frame waits, and it takes the place that a sent frame frees. -/
theorem test_frameTransmitted_listFrame :
    let r := replyTo 60 reqLookup 1 .done
    let s := after (.frameTransmitted .chassis) { sendingPage held with
      chassis.slot2 := .waiting (.reply r), chassis.slot3 := .waiting (.reply r), chassis.replies := List.replicate 8 r
      chassis.listCtx := some ⟨60, 7, 2, [held.summary kneel false]⟩ }
    (s.chassis.slot1, s.chassis.replies.length, (s.chassis.replies.getLast?).map Reply.total, s.chassis.listCtx) =
      (.waiting (.reply r), 8, some 2, none) := by decide

/-- R3: a corner whose height channel has no state is held and released as a FAILED one, and keeps its mode until a sample. -/
theorem test_levelCorner_absent_channel :
    let s := levelCorner { held with
      chans := held.chans.set (.h .n1) .reset
      lu := { held.lu with corners := .make fun _ => { CornerRec.reset with filtered := some 0, persist := 900 } } } .a1L
    ((s.corner .a1L).valve, (s.corner .a1L).reason, (s.corner .a1L).persist, (s.corner .a1L).mode, (s.act.c.get .a1L).release) =
      (.hold, some .failed, 0, .ride, true) := by decide

/-- R94, R97: creep begins at the entry into ESTABLISHED of a bus that slides, with 300 ms to its first step. -/
theorem test_establishIfMarked_creep :
    let s := establishIfMarked { held with
      shc.state := .applying, shc.establishTimer := some 1600, chans := held.chans.set (.b .a4) (chanAt 441)
      motion.speedState := .slow }
    (s.shc.state, s.shc.creep, s.shc.ceiling, s.shc.creepTimer, s.shc.establishTimer) =
      (.established, true, false, some 1300, none) := by decide

/-- R190, R191: a page displaced from its slot is due again and goes before the page next in turn, whose count stands. -/
theorem test_displaced_page_keeps_count :
    let l := { LinkRec.reset with
      slot1 := .sending (.status 0), slot2 := .waiting (.status 2), slot3 := .waiting (.status 1), nextPage := 3 }
    let d := l.placeRestraint (.restraint held.rr.restraint 7)
    let f := LinkRec.fill { d with due := true, slot1 := .free }
    (d.returned, f.slot1, f.nextPage, f.due, (LinkRec.fill { f with slot2 := .free }).nextPage) =
      ([1], .waiting (.status 1), 3, true, 4) := by decide

theorem test_statusPageTimer :
    let s := after .statusPageTimer { held with chassis.nextPage := 14 }
    (s.pageTimer, s.chassis.slot1, s.chassis.nextPage) = (some 1100, .waiting (.status 14), 0) := by decide

/-- R192, R193: the error that passes 255 takes the link to BUS_OFF; 255 itself does not. -/
theorem test_transmitError :
    let s := fun n => after (.transmitError .chassis) { sendingPage held with chassis.txErrors := n }
    ((s 248).chassis.state, (s 248).chassis.slot1, (s 247).chassis.state, (s 247).chassis.slot1) =
      (.busOff, .free, .passive, .sending (.status 3)) := by decide

theorem test_receiveError :
    let s := fun n => (after (.receiveError .body) { held with body.rxErrors := n }).body
    ((s 95).state, (s 127).state, (s 255).rxErrors) = (.warning, .passive, 255) := by decide

/-- R193: the 128th occurrence ends BUS_OFF, and the 127th does not. -/
theorem test_busOffRecovery :
    let s := fun n => (after (.busOffRecovery .body) { held with body.txErrors := 256, body.recessive := n }).body
    ((s 127).state, (s 127).txErrors, (s 126).state, (s 126).recessive) = (.errorActive, 0, .busOff, 127) := by decide

theorem test_tagCentrePublication :
    let s := after .tagCentrePublication { published (withEntries [rampEntry] { moving 200 held with au := { held.au with tag := .steering, target := -71, commanded := -32 } }) with rr.toAu := true }
    (s.au.tag, s.au.target, s.au.commanded, s.au.causes.tagCentre) = (.centring, 0, -32, true) := by decide

/-- R1, R10, 9.2, 2.8: division, the height filter and the tables on their worked figures. -/
theorem test_worked_figures :
    rdiv 232416 100 = 2324 ∧ filterStep (some 160) 13 8 = 166 ∧ filterStep (some 160) 13 64 = 161 ∧
      readTable (jointBreakpoints.zip delivered.baseDamping) 250 = 488 ∧ readTable (jointBreakpoints.zip delivered.jointLimit) 470 = 125 ∧
      readTable (gainBreakpoints.zip delivered.tagGain) 200 = 250 := by decide

/-! ## Witnesses: for each statement a state and operands that meet its hypotheses -/

theorem published_lineFollows (s : State) : LineFollowsRecord (published s) := by
  intro r h; cases h; exact ⟨rfl, rfl, rfl⟩

theorem witness_resetsClearVolatileRecords :
    (∃ (s : State) (r : RestartRec) (_good : Bool), s.service = .inService ∧ s.restart = some r) :=
  ⟨{ held with restart := some ⟨1100, false⟩ }, ⟨1100, false⟩, false, by decide⟩

theorem witness_partComesOutOfReset :
    (∃ (s : State), s.service = .held) ∧
    (∃ (s : State) (d : Nat), s.service = .held ∧ s.supply.test = some d) ∧
    (∃ (s : State), s.service = .held ∧ s.supply.test = none) :=
  ⟨⟨{ held with service := .held }, by decide⟩,
    ⟨{ held with service := .held, supply.test := some 1020 }, 1020, by decide⟩,
    ⟨{ held with service := .held }, by decide⟩⟩

theorem witness_tableReadsByInterpolation :
    (∃ (s : State) (l : Link) (q : Request) (rest : List RxFrame) (n : Nat) (row : PtCfg), Taken s l q rest n row ∧
      q.code = reqConfigCommit) ∧
    (∃ (s : State) (d : Nat), s.service = .inService ∧ s.periods.articulation = some d ∧ s.motion.freshness = .fresh
      ∧ s.motion.gear ≠ .reverse) :=
  ⟨⟨asked .chassis 60 [17, 1] held, .chassis, requestOf 60 [17, 1], [], 2, rowAt 2, by decide⟩,
    ⟨moving 399 held, 1020, by decide⟩⟩

theorem witness_sampleTakesEveryChannel :
    (∃ (s : State) (due : Nat) (_raw : PerChan Nat), s.service = .inService ∧ s.periods.sample = some due) ∧
    (∃ (s : State) (_raw : PerChan Nat), s.service = .firstSample) :=
  ⟨⟨held, 1010, usualCounts, by decide⟩,
    ⟨{ State.reset with service := .firstSample }, usualCounts, by decide⟩⟩

theorem witness_sampleDecidesSupplyAndAir :
    (∃ (s : State) (due : Nat) (_raw : PerChan Nat), s.service = .inService ∧ s.periods.sample = some due) ∧
    (∃ (s : State) (_raw : PerChan Nat), s.service = .firstSample ∧ s.sam.sampled = false) :=
  ⟨⟨held, 1010, usualCounts, by decide⟩,
    ⟨{ State.reset with service := .firstSample }, usualCounts, by decide⟩⟩

theorem witness_motionFrameIsChecked :
    (∃ (s : State) (f : RxFrame) (rest : List RxFrame) (n : Nat) (row : PtCfg), s.service = .inService ∧
      s.oldestMotion = some (f, rest) ∧ s.participant .chassis f.source = some (n, row) ∧ row.role =
      .vehicleComputer) ∧
    (∃ (s : State) (f : RxFrame) (rest : List RxFrame), s.service = .inService ∧ s.oldestMotion = some (f, rest) ∧
      s.participant .chassis f.source = none) ∧
    (∃ (s : State) (f : RxFrame) (rest : List RxFrame) (n : Nat) (row : PtCfg), s.service = .inService ∧
      s.oldestMotion = some (f, rest) ∧ s.participant .chassis f.source = some (n, row) ∧ row.role ≠
      .vehicleComputer) :=
  ⟨⟨framed (motionBytes 1500 1000 1000 2 2) held, ⟨.motion, 10, motionBytes 1500 1000 1000 2 2⟩, [], 1, rowAt 1,
      by decide⟩,
    ⟨{ held with chassis.rx := [⟨.motion, 99, motionBytes 0 0 0 1 2⟩] }, ⟨.motion, 99, motionBytes 0 0 0 1 2⟩, [],
      by decide⟩,
    ⟨{ held with chassis.rx := [⟨.motion, 60, motionBytes 0 0 0 1 2⟩] }, ⟨.motion, 60, motionBytes 0 0 0 1 2⟩, [], 2,
      rowAt 2, by decide⟩⟩

theorem witness_motionRecordGoesStaleAndLost :
    (∃ (s : State) (d : Nat), s.service = .inService ∧ s.motion.freshness = .fresh ∧ s.motion.timer = some d) ∧
    (∃ (s : State) (d : Nat), s.service = .inService ∧ s.motion.freshness = .stale ∧ s.motion.timer = some d) :=
  ⟨⟨held, 1100, by decide⟩,
    ⟨{ held with motion.freshness := .stale }, 1100, by decide⟩⟩

theorem witness_coilCheckCountsToFailure :
    (∃ (s : State) (d : Nat) (_found : CoilSenses), s.service = .inService ∧ s.periods.coil = some d) :=
  ⟨held, 1010, allOk, by decide⟩

theorem witness_brakePeriodComputesForces :
    (∃ (s : State) (d : Nat), s.service = .inService ∧ s.periods.brake = some d) :=
  ⟨held, 1010, by decide⟩

theorem witness_brakePeriodComputesPressures :
    (∃ (s : State) (d : Nat), s.service = .inService ∧ s.periods.brake = some d) :=
  ⟨held, 1010, by decide⟩

theorem witness_brakePeriodTakesLoads :
    (∃ (s : State) (d : Nat), s.service = .inService ∧ s.periods.brake = some d) :=
  ⟨held, 1010, by decide⟩

theorem witness_brakePeriodSendsCommands :
    (∃ (s : State) (d : Nat), s.service = .inService ∧ s.periods.brake = some d) :=
  ⟨held, 1010, by decide⟩

theorem witness_holdEvaluationOfEachState :
    (∃ (s : State) (d : Nat), s.service = .inService ∧ s.periods.brake = some d) :=
  ⟨held, 1010, by decide⟩

theorem witness_holdTimersExpire :
    (∃ (s : State) (d : Nat), s.service = .inService ∧ s.shc.state = .applying ∧ s.shc.establishTimer = some d) ∧
    (∃ (s : State) (d : Nat), s.service = .inService ∧ s.shc.creepTimer = some d) ∧
    (∃ (s : State) (f : RxFrame) (rest : List RxFrame) (n : Nat) (row : PtCfg), s.service = .inService ∧
      s.oldestMotion = some (f, rest) ∧ s.participant .chassis f.source = some (n, row) ∧ row.role =
      .vehicleComputer ∧ (readMotion f.data).speed ≤ 1500 ∧ (readMotion f.data).brake ≤ 1000 ∧ (readMotion
      f.data).accel ≤ 1000 ∧ (readMotion f.data).gear ≠ none ∧ s.motion.rolling ≠ some (readMotion f.data).rolling ∧
      s.shc.state = .established) :=
  ⟨⟨{ held with shc.state := .applying, shc.establishTimer := some 1600 }, 1600, by decide⟩,
    ⟨{ held with shc.creep := true, shc.creepTimer := some 1300 }, 1300, by decide⟩,
    ⟨framed (motionBytes 16 0 0 1 2) held, ⟨.motion, 10, motionBytes 16 0 0 1 2⟩, [], 1, rowAt 1, by decide⟩⟩

theorem witness_holdFollowsTheRequest :
    (∃ (s : State) (v : Bool) (rest : List Bool), s.service = .inService ∧ s.rr.toShc = v :: rest) ∧
    (∃ (s : State) (f : RxFrame) (rest : List RxFrame) (n : Nat) (row : PtCfg), s.service = .inService ∧
      s.oldestMotion = some (f, rest) ∧ s.participant .chassis f.source = some (n, row) ∧ row.role =
      .vehicleComputer ∧ (readMotion f.data).speed ≤ 1500 ∧ (readMotion f.data).brake ≤ 1000 ∧ (readMotion
      f.data).accel ≤ 1000 ∧ (readMotion f.data).gear ≠ none ∧ s.motion.rolling ≠ some (readMotion f.data).rolling ∧
      (readMotion f.data).speed ≤ 15 ∧ s.motion.speedState ≠ .standstill ∧ s.shc.state = .arming) :=
  ⟨⟨{ held with rr.toShc := [false] }, false, [], by decide⟩,
    ⟨framed (motionBytes 15 0 0 1 2) { moving 16 held with shc.state := .arming, shc.holdRequested := true },
      ⟨.motion, 10, motionBytes 15 0 0 1 2⟩, [], 1, rowAt 1, by decide⟩⟩

theorem witness_recomputationPublishesTheRecord :
    (∃ (s : State) (b : Restraint), (s.service = .inService ∨ s.service = .firstSample) ∧ LineFollowsRecord s ∧
      s.rr.published = some b) ∧
    (∃ (s : State), s.service = .publish ∧ s.rr.published = none) :=
  ⟨⟨published held, (published held).rr.restraint, by decide, published_lineFollows held, by decide⟩,
    ⟨{ State.reset with service := .publish }, by decide⟩⟩

theorem witness_resolverTimersExpire :
    (∃ (s : State) (d : Nat) (r : Restraint), s.service = .inService ∧ s.rr.repeatTimer = some d ∧ s.rr.published =
      some r) ∧
    (∃ (s : State) (d : Nat), s.service = .inService ∧ s.rr.holdFaultTimer = some d) :=
  ⟨⟨published held, 2000, (published held).rr.restraint, by decide⟩,
    ⟨{ held with shc.state := .holdFault, rr.holdFaultTimer := some 4000 }, 4000, by decide⟩⟩

theorem witness_levellingPeriodDecidesValves :
    (∃ (s : State) (d : Nat), s.service = .inService ∧ s.periods.levelling = some d ∧ ¬ (s.lu.ride = .raised ∧
      s.motion.freshness = .fresh ∧ 300 < s.motion.speed)) ∧
    (∃ (s : State) (d : Nat), s.service = .inService ∧ s.periods.levelling = some d ∧ s.lu.ride = .raised ∧
      s.motion.freshness = .fresh ∧ 300 < s.motion.speed) :=
  ⟨⟨held, 1100, by decide⟩,
    ⟨{ moving 301 held with lu.ride := .raised }, 1100, by decide⟩⟩

theorem witness_levelFreezeHoldsEveryCorner :
    (∃ (s : State) (v : Bool) (rest : List Bool), s.service = .inService ∧ s.rr.toLu = v :: rest) :=
  ⟨freezing held, true, [], by decide⟩

theorem witness_zoneFollowsThePublishedDepth :
    (∃ (s : State) (z : Zone) (d : Nat) (low : Bool) (rest : List (Nat × Bool)), s.service = .inService ∧
      s.rr.toZone z = (d, low) :: rest ∧ 0 < d ∧ ¬ (d = (s.zone z).depth ∧ low = (s.zone z).keepLow) ∧ ((s.zone
      z).state = .up ∨ (s.zone z).state = .rising ∨ (s.zone z).state = .stuckLow) ∧ s.motion.speedState =
      .standstill) ∧
    (∃ (s : State) (z : Zone) (d : Nat) (low : Bool) (rest : List (Nat × Bool)), s.service = .inService ∧
      s.rr.toZone z = (d, low) :: rest ∧ 0 < d ∧ ¬ (d = (s.zone z).depth ∧ low = (s.zone z).keepLow) ∧ ((s.zone
      z).state = .up ∨ (s.zone z).state = .rising ∨ (s.zone z).state = .stuckLow) ∧ s.motion.speedState ≠
      .standstill) ∧
    (∃ (s : State) (z : Zone) (d : Nat) (low : Bool) (rest : List (Nat × Bool)), s.service = .inService ∧
      s.rr.toZone z = (d, low) :: rest ∧ 0 < d ∧ ¬ (d = (s.zone z).depth ∧ low = (s.zone z).keepLow) ∧ ((s.zone
      z).state = .lowering ∨ (s.zone z).state = .down)) ∧
    (∃ (s : State) (f : RxFrame) (rest : List RxFrame) (n : Nat) (row : PtCfg) (_z : Zone), s.service = .inService ∧
      s.oldestMotion = some (f, rest) ∧ s.participant .chassis f.source = some (n, row) ∧ row.role =
      .vehicleComputer ∧ (readMotion f.data).speed ≤ 1500 ∧ (readMotion f.data).brake ≤ 1000 ∧ (readMotion
      f.data).accel ≤ 1000 ∧ (readMotion f.data).gear ≠ none ∧ s.motion.rolling ≠ some (readMotion f.data).rolling ∧
      (readMotion f.data).speed ≤ 15 ∧ s.motion.speedState ≠ .standstill) ∧
    (∃ (s : State) (due : Nat) (_raw : PerChan Nat) (_z : Zone), s.service = .inService ∧ s.periods.sample = some
      due) :=
  ⟨⟨{ held with rr.toFront := [(30, false)] }, .front, 30, false, [], by decide⟩,
    ⟨{ moving 60 held with rr.toRear := [(90, true)] }, .rear, 90, true, [], by decide⟩,
    ⟨{ held with lu.front := zoneIn .down 70 none, rr.toFront := [(71, false)] }, .front, 71, false, [], by decide⟩,
    ⟨framed (motionBytes 15 0 0 1 2) { moving 16 held with lu.front := zoneIn .down 70 none }, ⟨.motion, 10,
      motionBytes 15 0 0 1 2⟩, [], 1, rowAt 1, .front, by decide⟩,
    ⟨held, 1010, usualCounts, .front, by decide⟩⟩

theorem witness_zoneRisesWhenReleased :
    (∃ (s : State) (z : Zone) (low : Bool) (rest : List (Nat × Bool)), s.service = .inService ∧ s.rr.toZone z = (0,
      low) :: rest ∧ ¬ (0 = (s.zone z).depth ∧ low = (s.zone z).keepLow) ∧ ((s.zone z).state = .lowering ∨ (s.zone
      z).state = .down)) ∧
    (∃ (s : State) (f : RxFrame) (rest : List RxFrame) (n : Nat) (row : PtCfg) (_z : Zone), s.service = .inService ∧
      s.oldestMotion = some (f, rest) ∧ s.participant .chassis f.source = some (n, row) ∧ row.role =
      .vehicleComputer ∧ (readMotion f.data).speed ≤ 1500 ∧ (readMotion f.data).brake ≤ 1000 ∧ (readMotion
      f.data).accel ≤ 1000 ∧ (readMotion f.data).gear ≠ none ∧ s.motion.rolling ≠ some (readMotion f.data).rolling ∧
      30 < (readMotion f.data).speed ∧ s.motion.speedState ≠ .moving) ∧
    (∃ (s : State) (due : Nat) (_raw : PerChan Nat) (z : Zone), s.service = .inService ∧ s.periods.sample = some due
      ∧ ((s.zone z).state = .rising ∨ (s.zone z).state = .stuckLow)) ∧
    (∃ (s : State) (z : Zone) (low : Bool) (rest : List (Nat × Bool)), s.service = .inService ∧ s.rr.toZone z = (0,
      low) :: rest ∧ ¬ (0 = (s.zone z).depth ∧ low = (s.zone z).keepLow) ∧ ((s.zone z).state = .up ∨ (s.zone
      z).state = .rising ∨ (s.zone z).state = .stuckLow)) ∧
    (∃ (s : State) (z : Zone) (rest : List (Nat × Bool)), s.service = .inService ∧ s.rr.toZone z = ((s.zone
      z).depth, (s.zone z).keepLow) :: rest) :=
  ⟨⟨{ held with lu.front := zoneIn .lowering 70 (some 7000), rr.toFront := [(0, false)] }, .front, false, [],
      by decide⟩,
    ⟨framed (motionBytes 31 0 0 1 2) { held with lu.rear := zoneIn .rising 0 (some 11000) }, ⟨.motion, 10, motionBytes
      31 0 0 1 2⟩, [], 1, rowAt 1, .rear, by decide⟩,
    ⟨{ held with lu.rear := zoneIn .stuckLow 0 none }, 1010, usualCounts, .rear, by decide⟩,
    ⟨{ held with lu.front := { zoneIn .stuckLow 0 none with depth := 30 }, rr.toFront := [(0, true)] }, .front, true,
      [], by decide⟩,
    ⟨{ held with lu.front := zoneIn .down 70 none, rr.toFront := [(70, false)] }, .front, [], by decide⟩⟩

theorem witness_zoneAndRestoreTimersExpire :
    (∃ (s : State) (z : Zone) (d : Nat), s.service = .inService ∧ (s.zone z).state = .lowering ∧ (s.zone z).timer =
      some d) ∧
    (∃ (s : State) (z : Zone) (d : Nat), s.service = .inService ∧ (s.zone z).state = .rising ∧ (s.zone z).timer =
      some d) ∧
    (∃ (s : State) (d : Nat), s.service = .inService ∧ s.sam.restoreTimer = some d) :=
  ⟨⟨{ held with lu.front := zoneIn .lowering 70 (some 7000) }, .front, 7000, by decide⟩,
    ⟨{ held with lu.rear := zoneIn .rising 0 (some 11000) }, .rear, 11000, by decide⟩,
    ⟨{ held with sam := { held.sam with supplyLow := true, restoreTimer := some 1200 } }, 1200, by decide⟩⟩

theorem witness_articulationPeriodDampsTheJoint :
    (∃ (s : State) (d : Nat), s.service = .inService ∧ s.periods.articulation = some d) :=
  ⟨held, 1020, by decide⟩

theorem witness_steeringFollowsTheJoint :
    (∃ (s : State) (d : Nat) (j : Int), s.service = .inService ∧ s.periods.articulation = some d ∧ s.au.seeded =
      true ∧ s.au.tag = .steering ∧ s.motion.freshness = .fresh ∧ s.motion.speedState ≠ .unknown ∧ s.motion.speed <
      400 ∧ s.motion.gear ≠ .reverse ∧ s.lu.rear.state = .up ∧ s.rr.published.any Restraint.tagCentre = false ∧
      s.chans.j.usable = some j ∧ s.au.deviation < 480) :=
  ⟨{ moving 399 held with au.tag := .steering }, 1020, 0, by decide⟩

theorem witness_centringLocksTheTag :
    (∃ (s : State), s.service = .inService ∧ s.rr.toAu = true) ∧
    (∃ (s : State) (d : Nat), s.service = .inService ∧ s.periods.articulation = some d ∧ s.au.seeded = true ∧
      s.au.tag = .centring ∧ (s.rr.published.any Restraint.tagCentre = true ∨ s.motion.gear = .reverse ∨
      s.lu.rear.state ≠ .up ∨ s.motion.speedState = .unknown ∨ s.chans.j.usable = none ∨ (s.motion.freshness =
      .fresh ∧ 400 ≤ s.motion.speed)) ∧ s.au.deviation < 480) ∧
    (∃ (s : State) (d : Nat), s.service = .inService ∧ s.periods.articulation = some d ∧ s.au.seeded = true ∧
      s.au.tag = .centred ∧ (s.rr.published.any Restraint.tagCentre = true ∨ s.motion.gear = .reverse ∨
      s.lu.rear.state ≠ .up ∨ s.motion.speedState = .unknown ∨ s.chans.j.usable = none ∨ (s.motion.freshness =
      .fresh ∧ 400 ≤ s.motion.speed))) ∧
    (∃ (s : State) (d : Nat) (j : Int), s.service = .inService ∧ s.periods.articulation = some d ∧ s.au.seeded =
      true ∧ (s.au.tag = .centring ∨ s.au.tag = .centred) ∧ s.motion.freshness = .fresh ∧ s.motion.speedState ≠
      .unknown ∧ s.motion.speed < 400 ∧ s.motion.gear ≠ .reverse ∧ s.lu.rear.state = .up ∧ s.rr.published.any
      Restraint.tagCentre = false ∧ s.chans.j.usable = some j ∧ s.au.deviation < 480) ∧
    (∃ (s : State) (d : Nat), s.service = .inService ∧ s.periods.articulation = some d ∧ s.au.seeded = false ∧
      s.au.tag = .centring ∧ s.au.deviation < 480) :=
  ⟨⟨{ held with rr.toAu := true }, by decide⟩,
    ⟨{ moving 400 held with au.tag := .centring }, 1020, by decide⟩,
    ⟨{ moving 400 held with au.tag := .centred }, 1020, by decide⟩,
    ⟨{ moving 399 held with au.tag := .centred }, 1020, 0, by decide⟩,
    ⟨{ held with au.seeded := false }, 1020, by decide⟩⟩

theorem witness_tagDeviationFaultsAndLocks :
    (∃ (s : State) (d : Nat), s.service = .inService ∧ s.periods.articulation = some d ∧ s.au.seeded = true ∧
      (s.au.tag = .steering ∨ s.au.tag = .centring) ∧ 480 ≤ s.au.deviation ∧ s.chans.t.validFigure.all (fun p =>
      decide (20 < (p - s.au.commanded).natAbs)) = true) ∧
    (∃ (s : State) (d : Nat), s.service = .inService ∧ s.periods.articulation = some d ∧ s.au.seeded = true ∧
      s.au.tag = .fault) ∧
    (∃ (s : State) (d : Nat), s.service = .inService ∧ s.periods.articulation = some d ∧ s.au.seeded = false ∧
      s.au.tag = .fault) ∧
    (∃ (s : State) (d : Nat), s.service = .inService ∧ s.periods.articulation = some d ∧ s.au.seeded = true ∧
      (s.au.tag = .steering ∨ s.au.tag = .centring) ∧ (s.au.deviation < 480 ∨ ¬ s.chans.t.validFigure.all (fun p =>
      decide (20 < (p - s.au.commanded).natAbs)) = true)) ∧
    (∃ (s : State) (d : Nat), s.service = .inService ∧ s.periods.articulation = some d ∧ s.au.seeded = true ∧
      s.au.tag = .centred) :=
  ⟨⟨{ held with au.deviation := 480, chans := held.chans.set .t (chanAt 21) }, 1020, by decide⟩,
    ⟨{ held with au.tag := .fault }, 1020, by decide⟩,
    ⟨{ held with au.tag := .fault, au.seeded := false }, 1020, by decide⟩,
    ⟨{ held with au.tag := .steering, au.deviation := 480, chans := held.chans.set .t (chanAt 20) }, 1020, by decide⟩,
    ⟨{ held with au.tag := .centred, au.deviation := 480 }, 1020, by decide⟩⟩

theorem witness_leaseExpiryOrphans :
    (∃ (s : State) (n : Nat) (row : PtCfg) (d : Nat), s.service = .inService ∧ s.cfg.row n = some row ∧ (s.vol
      n).presence = .present ∧ (s.vol n).deadline = some d) :=
  ⟨{ held with pt := setNth held.pt 5 fun v => { v with presence := .present, deadline := some 1200 } }, 5, rowAt 5,
      1200, by decide⟩

theorem witness_rollCallCloses :
    (∃ (s : State) (d : Nat), s.service = .inService ∧ s.it.rollCall = .opened ∧ s.it.window = some d) ∧
    (∃ (s : State) (l : Link) (q : Request) (rest : List RxFrame) (n : Nat) (row : PtCfg), Taken s l q rest n row ∧
      q.code = reqOverride ∧ q.byte 2 = 3 ∧ (row.role = .driverConsole ∨ row.role = .serviceTool) ∧ s.it.rollCall =
      .opened) ∧
    (∃ (s : State) (l : Link) (q : Request) (rest : List RxFrame) (n : Nat) (row : PtCfg), Taken s l q rest n row ∧
      q.code = reqOverride ∧ q.byte 2 = 3 ∧ (row.role = .driverConsole ∨ row.role = .serviceTool) ∧ s.it.rollCall =
      .closed) ∧
    (∃ (s : State) (l : Link) (q : Request) (rest : List RxFrame) (n : Nat) (row : PtCfg), Taken s l q rest n row ∧
      q.code = reqOverride ∧ q.byte 2 = 3 ∧ (row.role = .driverConsole ∨ row.role = .serviceTool) ∧ s.it.rollCall =
      .awaiting) ∧
    (∃ (s : State) (f : RxFrame) (rest : List RxFrame) (n : Nat) (row : PtCfg), s.service = .inService ∧
      s.oldestMotion = some (f, rest) ∧ s.participant .chassis f.source = some (n, row) ∧ row.role =
      .vehicleComputer ∧ (readMotion f.data).speed ≤ 1500 ∧ (readMotion f.data).brake ≤ 1000 ∧ (readMotion
      f.data).accel ≤ 1000 ∧ (readMotion f.data).gear ≠ none ∧ s.motion.rolling ≠ some (readMotion f.data).rolling ∧
      s.it.rollCall = .awaiting ∧ NoGrantBeforeClose s ∧ (∀ c : Chan, (s.cfg.calib.get c).fitted = true →
      (s.chans.get c).st ≠ none)) ∧
    (∃ (s : State) (due : Nat) (_raw : PerChan Nat), s.service = .inService ∧ s.periods.sample = some due ∧
      s.it.rollCall = .awaiting ∧ NoGrantBeforeClose s) :=
  ⟨⟨{ held with it := { ItRec.reset with rollCall := .opened, window := some 3000 } }, 3000, by decide⟩,
    ⟨asked .body 40 [9, 1, 3] { held with it.rollCall := .opened }, .body, requestOf 40 [9, 1, 3], [], 8, rowAt 8,
      by decide⟩,
    ⟨asked .chassis 60 [9, 1, 3] { held with it.rollCall := .closed }, .chassis, requestOf 60 [9, 1, 3], [], 2, rowAt
      2, by decide⟩,
    ⟨asked .body 40 [9, 1, 3] { held with it.rollCall := .awaiting }, .body, requestOf 40 [9, 1, 3], [], 8, rowAt 8,
      by decide⟩,
    ⟨framed (motionBytes 0 0 0 1 2) awaitingRollCall, ⟨.motion, 10, motionBytes 0 0 0 1 2⟩, [], 1, rowAt 1, by decide,
      by decide, by decide, by decide, by decide, by decide, by decide, by decide, by decide, by decide,
      by unfold NoGrantBeforeClose; decide,
      fun c _ => by (rcases c with i | i | i | _ | _ | _ | _ | _ | _ | _ | _ | _ | _ | _) <;> first | decide | (cases i <;> decide)⟩,
    ⟨awaitingRollCall, 1010, usualCounts, by decide, by decide, by decide, by unfold NoGrantBeforeClose; decide⟩⟩

/-- A corner of each zone is FAILED, and its height channel recovers at the next sample. -/
def recovering : State :=
  let back := { chanAt 0 with st := some .failed, failTime := 500, recTime := 990 }
  twoKneels ((({ held with chans := (held.chans.set (.h (held.map.get .a1L).height) back).set (.h (held.map.get .a4L).height) back }
    : State).setCorner .a1L { held.corner .a1L with mode := .failed }).setCorner .a4L { held.corner .a4L with mode := .failed })

theorem witness_reexaminationGrants :
    (∃ (s : State) (f : RxFrame) (rest : List RxFrame) (n : Nat) (row : PtCfg), s.service = .inService ∧
      s.oldestMotion = some (f, rest) ∧ s.participant .chassis f.source = some (n, row) ∧ row.role =
      .vehicleComputer ∧ (readMotion f.data).speed ≤ 1500 ∧ (readMotion f.data).brake ≤ 1000 ∧ (readMotion
      f.data).accel ≤ 1000 ∧ (readMotion f.data).gear ≠ none ∧ s.motion.rolling ≠ some (readMotion f.data).rolling) ∧
    (∃ (s : State) (d : Nat), s.service = .inService ∧ s.motion.freshness = .fresh ∧ s.motion.timer = some d ∧
      s.motion.speedState ≠ .unknown) ∧
    (∃ (s : State) (d : Nat), s.service = .inService ∧ s.periods.brake = some d) ∧
    (∃ (s : State) (d : Nat), s.service = .inService ∧ s.shc.state = .applying ∧ s.shc.establishTimer = some d) ∧
    (∃ (s : State) (v : Bool) (rest : List Bool), s.service = .inService ∧ s.rr.toShc = v :: rest) ∧
    (∃ (s : State) (due : Nat) (_raw : PerChan Nat), s.service = .inService ∧ s.periods.sample = some due) ∧
    (∃ (s : State) (due : Nat) (raw : PerChan Nat) (a b : Entry) (t : State), (s.service = .inService ∧ s.periods.sample =
      some due ∧ s.it.rollCall = .closed ∧ s.motion.speedState = .standstill ∧ s.shc.state = .established ∧
      s.sam.riseReserve = true ∧ a ∈ s.it.entries ∧ b ∈ s.it.entries ∧ a.state ≠ .active ∧ b.state ≠ .active ∧
      a.kind = .kneel ∧ b.kind = .kneel ∧ a.zone = .front ∧ b.zone = .rear) ∧ InputsSignalled s ∧
      (∀ z : Zone, s.lu.zoneFailed z = true) ∧ exec (.measurementSample raw) s = .next t ∧
      (∀ z : Zone, t.lu.zoneFailed z = false) ∧ t.sam.riseReserve = true) :=
  ⟨⟨framed (motionBytes 16 0 0 1 2) (withEntries [kneel] held), ⟨.motion, 10, motionBytes 16 0 0 1 2⟩, [], 1, rowAt 1,
      by decide⟩,
    ⟨withEntries [kneel] held, 1100, by decide⟩,
    ⟨establishing, 1010, by decide⟩,
    ⟨establishing, 1600, by decide⟩,
    ⟨{ withEntries [{ kneel with state := .pending .holdNotEstablished }] held with rr.toShc := [true] }, true, [],
      by decide⟩,
    ⟨withEntries [{ kneel with state := .pending .airReserve }] held, 1010, usualCounts, by decide⟩,
    recovering, 1010, usualCounts, waitingFront, waitingRear,
    sample usualCounts { recovering with now := 1010, periods.sample := some 1020 }, by decide,
    by unfold InputsSignalled; decide, by intro z; cases z <;> decide, rfl, fun z =>
      (congrArg (LuRec.zoneFailed · z) (sample_afterRecords_frame _ _ .lu (by decide))).trans (by cases z <;> decide +kernel),
    (congrArg SamRec.riseReserve (sample_afterRecords_frame _ _ .sam (by decide))).trans (by decide +kernel)⟩

theorem witness_assertCreatesAnEntry :
    (∃ (s : State) (l : Link) (q : Request) (rest : List RxFrame) (n : Nat) (row : PtCfg) (kind : Kind), Taken s l q
      rest n row ∧ q.code = reqAssert ∧ kindOfCode q.fields.kind = some kind ∧ checkFields row.role q.fields = none
      ∧ s.findEntry n q.fields.tag = none ∧ s.hasPlace n = true) :=
  ⟨asked .body 40 [1, 7, 6, 3, 64, 1, 70, 0] held, .body, requestOf 40 [1, 7, 6, 3, 64, 1, 70, 0], [], 8, rowAt 8,
      .kneel, by decide⟩

theorem witness_assertIsRefusedOrAdopts :
    (∃ (s : State) (l : Link) (q : Request) (rest : List RxFrame) (n : Nat) (row : PtCfg) (why : RefusalReason),
      Taken s l q rest n row ∧ q.code = reqAssert ∧ checkFields row.role q.fields = some why) ∧
    (∃ (s : State) (l : Link) (q : Request) (rest : List RxFrame) (n : Nat) (row : PtCfg) (e : Entry), Taken s l q
      rest n row ∧ q.code = reqAssert ∧ checkFields row.role q.fields = none ∧ s.findEntry n q.fields.tag = some e ∧
      e.orphaned = false) ∧
    (∃ (s : State) (l : Link) (q : Request) (rest : List RxFrame) (n : Nat) (row : PtCfg), Taken s l q rest n row ∧
      q.code = reqAssert ∧ checkFields row.role q.fields = none ∧ s.findEntry n q.fields.tag = none ∧ s.hasPlace n =
      false) ∧
    (∃ (s : State) (l : Link) (q : Request) (rest : List RxFrame) (n : Nat) (row : PtCfg) (e : Entry), Taken s l q
      rest n row ∧ KeysDistinct s ∧ q.code = reqAssert ∧ checkFields row.role q.fields = none ∧ s.findEntry n
      q.fields.tag = some e ∧ e.orphaned = true) :=
  ⟨⟨asked .body 40 [1, 7, 7, 3, 64, 1, 70, 0] held, .body, requestOf 40 [1, 7, 7, 3, 64, 1, 70, 0], [], 8, rowAt 8,
      .badField, by decide⟩,
    ⟨asked .body 40 [1, 7, 0, 3, 64, 1, 70, 0] (withEntries [kneel] held), .body, requestOf 40 [1, 7, 0, 3, 64, 1, 70,
      0], [], 8, rowAt 8, kneel, by decide⟩,
    ⟨asked .body 40 [1, 7, 0, 3, 64, 1, 70, 0] (withEntries kneels held), .body, requestOf 40 [1, 7, 0, 3, 64, 1, 70,
      0], [], 8, rowAt 8, by decide⟩,
    ⟨asked .body 23 [1, 7, 0, 1, 0, 0, 0, 3] (withEntries [{ door .opened with orphaned := true }] held), .body,
      requestOf 23 [1, 7, 0, 1, 0, 0, 0, 3], [], 5, rowAt 5, { door .opened with orphaned := true }, by decide,
      by unfold KeysDistinct; decide, by decide, by decide, by decide, by decide⟩⟩

theorem witness_amendChangesWhatItMay :
    (∃ (s : State) (l : Link) (q : Request) (rest : List RxFrame) (n : Nat) (row : PtCfg), Taken s l q rest n row ∧
      q.code = reqAmend ∧ (7 < q.byte 2 ∨ 5 < q.byte 3 ∨ 3 < q.byte 5 ∨ 3 < q.byte 7)) ∧
    (∃ (s : State) (l : Link) (q : Request) (rest : List RxFrame) (n : Nat) (row : PtCfg), Taken s l q rest n row ∧
      q.code = reqAmend ∧ q.byte 2 ≤ 7 ∧ q.byte 3 ≤ 5 ∧ q.byte 5 ≤ 3 ∧ q.byte 7 ≤ 3 ∧ (q.byte 2 = 7 ∨ s.findEntry n
      (q.byte 2) = none)) ∧
    (∃ (s : State) (l : Link) (q : Request) (rest : List RxFrame) (n : Nat) (row : PtCfg) (e : Entry), Taken s l q
      rest n row ∧ KeysDistinct s ∧ q.code = reqAmend ∧ q.byte 2 ≤ 6 ∧ q.byte 3 ≤ 5 ∧ q.byte 5 ≤ 3 ∧ q.byte 7 ≤ 3 ∧
      s.findEntry n (q.byte 2) = some e) :=
  ⟨⟨asked .body 40 [2, 7, 8] held, .body, requestOf 40 [2, 7, 8], [], 8, rowAt 8, by decide⟩,
    ⟨asked .body 40 [2, 7, 7] held, .body, requestOf 40 [2, 7, 7], [], 8, rowAt 8, by decide⟩,
    ⟨asked .body 40 [2, 7, 0, 0, 64, 0, 91, 0] (withEntries [kneel] held), .body, requestOf 40 [2, 7, 0, 0, 64, 0, 91,
      0], [], 8, rowAt 8, kneel, by decide, by unfold KeysDistinct; decide, by decide, by decide, by decide⟩⟩

theorem witness_releaseRetiresClosedEntries :
    (∃ (s : State) (l : Link) (q : Request) (rest : List RxFrame) (n : Nat) (row : PtCfg), Taken s l q rest n row ∧
      q.code = reqRelease ∧ (6 < q.byte 2 ∨ s.findEntry n (q.byte 2) = none)) ∧
    (∃ (s : State) (l : Link) (q : Request) (rest : List RxFrame) (n : Nat) (row : PtCfg) (e : Entry), Taken s l q
      rest n row ∧ q.code = reqRelease ∧ q.byte 2 ≤ 6 ∧ s.findEntry n (q.byte 2) = some e) ∧
    (∃ (s : State) (l : Link) (q : Request) (rest : List RxFrame) (n : Nat) (row : PtCfg), Taken s l q rest n row ∧
      q.code = reqReleaseAll) :=
  ⟨⟨asked .body 40 [3, 7, 7] held, .body, requestOf 40 [3, 7, 7], [], 8, rowAt 8, by decide⟩,
    ⟨asked .body 23 [3, 7, 0] (withEntries [door .closed] held), .body, requestOf 23 [3, 7, 0], [], 5, rowAt 5, door
      .closed, by decide⟩,
    ⟨asked .body 40 [4, 7] held, .body, requestOf 40 [4, 7], [], 8, rowAt 8, by decide⟩⟩

theorem witness_lookupReadsOneEntry :
    (∃ (s : State) (l : Link) (q : Request) (rest : List RxFrame) (n : Nat) (row : PtCfg), Taken s l q rest n row ∧
      q.code = reqLookup) :=
  ⟨asked .body 40 [5, 7, 7] held, .body, requestOf 40 [5, 7, 7], [], 8, rowAt 8, by decide⟩

theorem witness_presenceOnlyRenewsTheLease :
    (∃ (s : State) (l : Link) (q : Request) (rest : List RxFrame) (n : Nat) (row : PtCfg), Taken s l q rest n row ∧
      q.code = reqPresence) :=
  ⟨asked .body 40 [10, 7] held, .body, requestOf 40 [10, 7], [], 8, rowAt 8, by decide⟩

theorem witness_listRepliesFrameByFrame :
    (∃ (s : State) (l : Link) (q : Request) (rest : List RxFrame) (n : Nat) (row : PtCfg), Taken s l q rest n row ∧
      q.code = reqList ∧ (5 < q.byte 3 ∨ 3 < q.byte 5 ∨ 127 < q.byte 6 ∨ (q.byte 6 ≠ 0 ∧ 1 < q.byte 7))) ∧
    (∃ (s : State) (l : Link) (q : Request) (rest : List RxFrame) (n : Nat) (row : PtCfg), Taken s l q rest n row ∧
      q.code = reqList ∧ ¬ (5 < q.byte 3 ∨ 3 < q.byte 5 ∨ 127 < q.byte 6 ∨ (q.byte 6 ≠ 0 ∧ 1 < q.byte 7))) ∧
    (∃ (s : State) (l : Link) (c : ListCtx) (e : Summary) (more : List Summary), s.service = .inService ∧ (s.link
      l).listCtx = some c ∧ c.rest = e :: more ∧ (s.link l).replies.length < 8) ∧
    (∃ (s : State) (l : Link) (q : Request) (rest : List RxFrame) (n : Nat) (row : PtCfg), Taken s l q rest n row ∧
      q.code = reqLookup) ∧
    (∃ (s : State) (l : Link) (q : Request) (rest : List RxFrame) (n : Nat) (row : PtCfg), Taken s l q rest n row ∧
      q.code = reqPresence) :=
  ⟨⟨asked .chassis 60 [6, 7, 0, 6] held, .chassis, requestOf 60 [6, 7, 0, 6], [], 2, rowAt 2, by decide⟩,
    ⟨asked .chassis 60 [6, 7, 0, 5, 0, 3, 127, 1] held, .chassis, requestOf 60 [6, 7, 0, 5, 0, 3, 127, 1], [], 2,
      rowAt 2, by decide⟩,
    ⟨{ held with chassis.listCtx := some ⟨60, 7, 2, [held.summary kneel false]⟩ }, .chassis, ⟨60, 7, 2, [held.summary
      kneel false]⟩, held.summary kneel false, [], by decide⟩,
    ⟨asked .body 40 [5, 7, 7] held, .body, requestOf 40 [5, 7, 7], [], 8, rowAt 8, by decide⟩,
    ⟨asked .body 40 [10, 7] held, .body, requestOf 40 [10, 7], [], 8, rowAt 8, by decide⟩⟩

theorem witness_reportIsStagedAndCompletes :
    (∃ (s : State) (l : Link) (q : Request) (rest : List RxFrame) (n : Nat) (row : PtCfg), Taken s l q rest n row ∧
      q.code = reqReportBegin ∧ 7 < q.byte 2) ∧
    (∃ (s : State) (l : Link) (q : Request) (rest : List RxFrame) (n : Nat) (row : PtCfg), Taken s l q rest n row ∧
      q.code = reqReportBegin ∧ 1 ≤ q.byte 2 ∧ q.byte 2 ≤ 7) ∧
    (∃ (s : State) (l : Link) (q : Request) (rest : List RxFrame) (n : Nat) (row : PtCfg), Taken s l q rest n row ∧
      q.code = reqReportBegin ∧ q.byte 2 = 0) ∧
    (∃ (s : State) (l : Link) (q : Request) (rest : List RxFrame) (n : Nat) (row : PtCfg), Taken s l q rest n row ∧
      q.code = reqReportEntry ∧ (s.vol n).report = none) ∧
    (∃ (s : State) (l : Link) (q : Request) (rest : List RxFrame) (n : Nat) (row : PtCfg) (c : ReportCtx), Taken s l
      q rest n row ∧ q.code = reqReportEntry ∧ (s.vol n).report = some c ∧ c.received + 1 < c.expected) ∧
    (∃ (s : State) (l : Link) (q : Request) (rest : List RxFrame) (n : Nat) (row : PtCfg) (c : ReportCtx), Taken s l
      q rest n row ∧ q.code = reqReportEntry ∧ (s.vol n).report = some c ∧ c.expected ≤ c.received + 1) ∧
    (∃ (s : State) (n : Nat) (row : PtCfg) (c : ReportCtx), s.service = .inService ∧ s.cfg.row n = some row ∧ (s.vol
      n).report = some c) :=
  ⟨⟨asked .body 23 [7, 1, 8] held, .body, requestOf 23 [7, 1, 8], [], 5, rowAt 5, by decide⟩,
    ⟨asked .body 23 [7, 1, 7] held, .body, requestOf 23 [7, 1, 7], [], 5, rowAt 5, by decide⟩,
    ⟨asked .body 23 [7, 1, 0] held, .body, requestOf 23 [7, 1, 0], [], 5, rowAt 5, by decide⟩,
    ⟨asked .body 23 [8, 1, 0, 1, 0, 0, 0, 3] held, .body, requestOf 23 [8, 1, 0, 1, 0, 0, 0, 3], [], 5, rowAt 5,
      by decide⟩,
    ⟨asked .body 23 [8, 1, 0, 1, 0, 0, 0, 3] (reporting 2), .body, requestOf 23 [8, 1, 0, 1, 0, 0, 0, 3], [], 5, rowAt
      5, newReport 2 900 7 2, by decide⟩,
    ⟨asked .body 23 [8, 1, 0, 1, 0, 0, 0, 3] (reporting 1), .body, requestOf 23 [8, 1, 0, 1, 0, 0, 0, 3], [], 5, rowAt
      5, newReport 1 900 7 2, by decide⟩,
    ⟨reporting 2, 5, rowAt 5, newReport 2 900 7 2, by decide⟩⟩

theorem witness_overrideClearsAnOrphanAndAZone :
    (∃ (s : State) (l : Link) (q : Request) (rest : List RxFrame) (n : Nat) (row : PtCfg) (own : Link) (m : Nat)
      (orow : PtCfg) (e : Entry), Taken s l q rest n row ∧ q.code = reqOverride ∧ q.byte 2 = 1 ∧ (row.role =
      .driverConsole ∨ row.role = .serviceTool) ∧ linkOfByte (q.byte 7) = some own ∧ s.motion.speedState =
      .standstill ∧ s.shc.state = .established ∧ s.participant own (q.byte 6) = some (m, orow) ∧ s.findEntry m
      (q.byte 3) = some e ∧ e.orphaned = true) ∧
    (∃ (s : State) (l : Link) (q : Request) (rest : List RxFrame) (n : Nat) (row : PtCfg), Taken s l q rest n row ∧
      q.code = reqOverride ∧ q.byte 2 = 1 ∧ (row.role = .driverConsole ∨ row.role = .serviceTool) ∧ q.byte 7 ≤ 1 ∧
      (s.motion.speedState ≠ .standstill ∨ s.shc.state ≠ .established)) ∧
    (∃ (s : State) (l : Link) (q : Request) (rest : List RxFrame) (n : Nat) (row : PtCfg) (z : Zone), Taken s l q
      rest n row ∧ q.code = reqOverride ∧ q.byte 2 = 2 ∧ (row.role = .driverConsole ∨ row.role = .serviceTool) ∧
      q.byte 5 = (match z with | .front => 1 | .rear => 2)) ∧
    (∃ (s : State) (l : Link) (q : Request) (rest : List RxFrame) (n : Nat) (row : PtCfg), Taken s l q rest n row ∧
      q.code = reqOverride ∧ q.byte 2 = 2 ∧ (row.role = .driverConsole ∨ row.role = .serviceTool) ∧ q.byte 5 ≠ 1 ∧
      q.byte 5 ≠ 2) ∧
    (∃ (s : State) (l : Link) (q : Request) (rest : List RxFrame) (n : Nat) (row : PtCfg) (p : Instr × (Request →
      Bool)), Taken s l q rest n row ∧ p ∈ [((.overrideOrphan l : Instr), isOverride 1), (.overrideZone l,
      isOverride 2), (.overrideRollCall l, isOverride 3), (.overrideAcknowledge l, isOverride 4)] ∧ p.2 q = true ∧
      row.role ≠ .driverConsole ∧ row.role ≠ .serviceTool) ∧
    (∃ (s : State) (l : Link) (q : Request) (rest : List RxFrame) (n : Nat) (row : PtCfg) (p : Instr × (Request →
      Bool)), Taken s l q rest n row ∧ p ∈ [((.overrideOrphan l : Instr), isOverride 1), (.overrideZone l,
      isOverride 2), (.overrideRollCall l, isOverride 3), (.overrideAcknowledge l, isOverride 4)] ∧ p.2 q = true ∧
      (row.role = .driverConsole ∨ row.role = .serviceTool) ∧ (q.byte 2 = 0 ∨ 4 < q.byte 2)) ∧
    (∃ (s : State) (l : Link) (q : Request) (rest : List RxFrame) (n : Nat) (row : PtCfg), Taken s l q rest n row ∧
      q.code = reqOverride ∧ q.byte 2 = 1 ∧ (row.role = .driverConsole ∨ row.role = .serviceTool) ∧ 1 < q.byte 7) ∧
    (∃ (s : State) (l : Link) (q : Request) (rest : List RxFrame) (n : Nat) (row : PtCfg) (own : Link), Taken s l q
      rest n row ∧ q.code = reqOverride ∧ q.byte 2 = 1 ∧ (row.role = .driverConsole ∨ row.role = .serviceTool) ∧
      linkOfByte (q.byte 7) = some own ∧ s.motion.speedState = .standstill ∧ s.shc.state = .established ∧
      s.orphanNamed own (q.byte 6) (q.byte 3) = none) :=
  ⟨⟨asked .body 40 [9, 1, 1, 0, 0, 0, 23, 1] (withEntries [{ door .opened with orphaned := true }] held), .body,
      requestOf 40 [9, 1, 1, 0, 0, 0, 23, 1], [], 8, rowAt 8, .body, 5, rowAt 5, { door .opened with orphaned := true
      }, by decide⟩,
    ⟨asked .body 40 [9, 1, 1, 0, 0, 0, 23, 1] (moving 60 held), .body, requestOf 40 [9, 1, 1, 0, 0, 0, 23, 1], [], 8,
      rowAt 8, by decide⟩,
    ⟨asked .body 40 [9, 1, 2, 0, 0, 2] held, .body, requestOf 40 [9, 1, 2, 0, 0, 2], [], 8, rowAt 8, .rear,
      by decide⟩,
    ⟨asked .body 40 [9, 1, 2, 0, 0, 3] held, .body, requestOf 40 [9, 1, 2, 0, 0, 3], [], 8, rowAt 8, by decide⟩,
    ⟨asked .body 23 [9, 1, 1] held, .body, requestOf 23 [9, 1, 1], [], 5, rowAt 5, (.overrideOrphan .body, isOverride
      1), by decide, by simp, by decide, by decide, by decide⟩,
    ⟨asked .body 40 [9, 1, 5] held, .body, requestOf 40 [9, 1, 5], [], 8, rowAt 8, (.overrideZone .body, isOverride
      2), by decide, by simp, by decide, by decide, by decide⟩,
    ⟨asked .body 40 [9, 1, 1, 0, 0, 0, 23, 2] held, .body, requestOf 40 [9, 1, 1, 0, 0, 0, 23, 2], [], 8, rowAt 8,
      by decide⟩,
    ⟨asked .body 40 [9, 1, 1, 0, 0, 0, 23, 1] held, .body, requestOf 40 [9, 1, 1, 0, 0, 0, 23, 1], [], 8, rowAt 8,
      .body, by decide⟩⟩

theorem witness_acknowledgementClearsRed :
    (∃ (s : State) (l : Link) (q : Request) (rest : List RxFrame) (n : Nat) (row : PtCfg), Taken s l q rest n row ∧
      LineFollowsRecord s ∧ q.code = reqOverride ∧ q.byte 2 = 4 ∧ (row.role = .driverConsole ∨ row.role =
      .serviceTool)) :=
  ⟨asked .body 40 [9, 1, 4] (published held), .body, requestOf 40 [9, 1, 4], [], 8, rowAt 8, by decide,
      published_lineFollows held, by decide, by decide, by decide⟩

theorem witness_rideLevelIsSet :
    (∃ (s : State) (l : Link) (q : Request) (rest : List RxFrame) (n : Nat) (row : PtCfg) (v : RideLevel), Taken s l
      q rest n row ∧ q.code = reqSetRideLevel ∧ (row.role = .driverConsole ∨ row.role = .serviceTool) ∧ q.byte 2 =
      (match v with | .normal => 1 | .raised => 2) ∧ (v = .normal ∨ (s.motion.freshness = .fresh ∧ s.motion.speed ≤
      200))) ∧
    (∃ (s : State) (l : Link) (q : Request) (rest : List RxFrame) (n : Nat) (row : PtCfg), Taken s l q rest n row ∧
      q.code = reqSetRideLevel ∧ (row.role = .driverConsole ∨ row.role = .serviceTool) ∧ q.byte 2 = 2 ∧
      (s.motion.freshness ≠ .fresh ∨ 200 < s.motion.speed)) ∧
    (∃ (s : State) (l : Link) (q : Request) (rest : List RxFrame) (n : Nat) (row : PtCfg), Taken s l q rest n row ∧
      q.code = reqSetRideLevel ∧ (row.role = .driverConsole ∨ row.role = .serviceTool) ∧ q.byte 2 ≠ 1 ∧ q.byte 2 ≠
      2) :=
  ⟨⟨asked .body 40 [11, 1, 2] (moving 200 held), .body, requestOf 40 [11, 1, 2], [], 8, rowAt 8, .raised, by decide⟩,
    ⟨asked .body 40 [11, 1, 2] (moving 201 held), .body, requestOf 40 [11, 1, 2], [], 8, rowAt 8, by decide⟩,
    ⟨asked .body 40 [11, 1, 3] held, .body, requestOf 40 [11, 1, 3], [], 8, rowAt 8, by decide⟩⟩

theorem witness_configurationIsStaged :
    (∃ (s : State) (l : Link) (q : Request) (rest : List RxFrame) (n : Nat) (row : PtCfg), Taken s l q rest n row ∧
      q.code = reqConfigWrite ∧ row.role = .serviceTool) ∧
    (∃ (s : State) (l : Link) (q : Request) (rest : List RxFrame) (n : Nat) (row : PtCfg), Taken s l q rest n row ∧
      q.code = reqConfigDiscard ∧ row.role = .serviceTool) ∧
    (∃ (s : State) (l : Link) (q : Request) (rest : List RxFrame) (n : Nat) (row : PtCfg), Taken s l q rest n row ∧
      q.code = reqConfigWrite ∧ row.role ≠ .serviceTool) ∧
    (∃ (s : State) (l : Link) (q : Request) (rest : List RxFrame) (n : Nat) (row : PtCfg), Taken s l q rest n row ∧
      q.code = reqConfigDiscard ∧ row.role ≠ .serviceTool) :=
  ⟨⟨asked .chassis 60 [16, 1, 16, 1, 2, 138] held, .chassis, requestOf 60 [16, 1, 16, 1, 2, 138], [], 2, rowAt 2,
      by decide⟩,
    ⟨asked .chassis 60 [18, 1] held, .chassis, requestOf 60 [18, 1], [], 2, rowAt 2, by decide⟩,
    ⟨asked .body 40 [16, 1, 16, 1, 2, 138] held, .body, requestOf 40 [16, 1, 16, 1, 2, 138], [], 8, rowAt 8,
      by decide⟩,
    ⟨asked .body 40 [18, 1] held, .body, requestOf 40 [18, 1], [], 8, rowAt 8, by decide⟩⟩

theorem witness_commitAppliesAllOrNothing :
    (∃ (s : State) (l : Link) (q : Request) (rest : List RxFrame) (n : Nat) (row : PtCfg), Taken s l q rest n row ∧
      q.code = reqConfigCommit ∧ row.role = .serviceTool) ∧
    (∃ (s : State) (p : Params), s.service = .inService ∧ s.store.writing = some p) :=
  ⟨⟨asked .chassis 60 [17, 1] held, .chassis, requestOf 60 [17, 1], [], 2, rowAt 2, by decide⟩,
    ⟨{ held with store.writing := some delivered }, delivered, by decide⟩⟩

theorem witness_diagnosticsAndRestart :
    (∃ (s : State) (l : Link) (q : Request) (rest : List RxFrame) (n : Nat) (row : PtCfg) (c : Chan), Taken s l q
      rest n row ∧ q.code = reqDiagnostic ∧ row.role = .serviceTool ∧ chanOfNumber (q.byte 2) = some c) ∧
    (∃ (s : State) (l : Link) (q : Request) (rest : List RxFrame) (n : Nat) (row : PtCfg) (r : ActReport), Taken s l
      q rest n row ∧ q.code = reqDiagnostic ∧ row.role = .serviceTool ∧ 31 < q.byte 2 ∧ s.actReport (q.byte 2 - 31)
      = some r) ∧
    (∃ (s : State) (l : Link) (q : Request) (rest : List RxFrame) (n : Nat) (row : PtCfg), Taken s l q rest n row ∧
      q.code = reqDiagnostic ∧ row.role = .serviceTool ∧ (q.byte 2 = 0 ∨ 51 < q.byte 2)) ∧
    (∃ (s : State) (l : Link) (q : Request) (rest : List RxFrame) (n : Nat) (row : PtCfg), Taken s l q rest n row ∧
      q.code = reqDiagnostic ∧ row.role ≠ .serviceTool) ∧
    (∃ (s : State) (l : Link) (q : Request) (rest : List RxFrame) (n : Nat) (row : PtCfg), Taken s l q rest n row ∧
      q.code = reqRestart) :=
  ⟨⟨asked .chassis 60 [20, 1, 31] held, .chassis, requestOf 60 [20, 1, 31], [], 2, rowAt 2, .d4, by decide⟩,
    ⟨asked .chassis 60 [20, 1, 32] held, .chassis, requestOf 60 [20, 1, 32], [], 2, rowAt 2, ⟨none, false, false, .ok,
      0, false, false, some 490⟩, by decide⟩,
    ⟨asked .chassis 60 [20, 1, 52] held, .chassis, requestOf 60 [20, 1, 52], [], 2, rowAt 2, by decide⟩,
    ⟨asked .body 40 [20, 1, 1] held, .body, requestOf 40 [20, 1, 1], [], 8, rowAt 8, by decide⟩,
    ⟨asked .chassis 60 [19, 1] held, .chassis, requestOf 60 [19, 1], [], 2, rowAt 2, by decide⟩⟩

theorem witness_receivedFrameIsFilteredAndBuffered :
    (∃ (s : State) (_l : Link) (_f : BusFrame), s.service = .inService) :=
  ⟨held, .chassis, ⟨identity 16 60, zeros 8⟩, by decide⟩

theorem witness_sentFrameFreesItsSlot :
    (∃ (s : State) (l : Link) (i : TxItem), s.service = .inService ∧ (s.link l).offer.sending = some i) ∧
    (∃ (s : State) (d : Nat), s.service = .inService ∧ s.pageTimer = some d) :=
  ⟨⟨sendingPage held, .chassis, .status 3, by decide⟩,
    ⟨held, 1050, by decide⟩⟩

theorem witness_errorCountsLeadToBusOff :
    (∃ (s : State) (l : Link) (i : TxItem), s.service = .inService ∧ (s.link l).offer.sending = some i) ∧
    (∃ (s : State) (_l : Link), s.service = .inService) ∧
    (∃ (s : State) (l : Link), s.service = .inService ∧ (s.link l).state = .busOff) :=
  ⟨⟨sendingPage held, .chassis, .status 3, by decide⟩,
    ⟨held, .body, by decide⟩,
    ⟨{ held with body.txErrors := 256, body.recessive := 127 }, .body, by decide⟩⟩
/-! ### Statements about steps and shared operations -/

theorem witness_stepRunsFrontCommand : ∃ (s : State) (c : Instr) (q : List Instr), s.pending = c :: q :=
  ⟨held.withPending [.brakePeriod, .supplyDip], .brakePeriod, [.supplyDip], rfl⟩

theorem witness_emptyQueuePassesAMillisecond : ∃ s : State, s.pending = [] ∧ s.service = .inService := ⟨held, rfl, rfl⟩

/-- A steering tag at its period. -/
def steering : State := { (moving 200 held).withPending [.articulationPeriod] with au.tag := .steering, au.commanded := -120 }

theorem witness_tagStaysInRangeAndLockOverrides : ∃ s t : State, LockOverrides s ∧ TagWithinRange s ∧ step s = .next t :=
  ⟨steering, after .articulationPeriod (steering.withPending []), by unfold LockOverrides; decide,
    ⟨by decide, by decide, by decide, by decide, fun x h => nomatch h⟩, rfl⟩

/-- A corner fills while its air is allowed, and a sample finds HOLD_OK false. -/
def filling : State :=
  { held.setCorner .a1L { CornerRec.reset with valve := .fill } with pending := [.measurementSample (usualCounts.set .r3 205)] }

theorem witness_noValveFillsWhenForbidden : ∃ s t : State, NoForbiddenFill s ∧ step s = .next t ∧ s.pending ≠ [] :=
  ⟨filling, after (.measurementSample (usualCounts.set .r3 205)) (filling.withPending []),
    (by intro k _; cases k <;> exact ⟨rfl, rfl, rfl, by decide, by decide⟩),
    rfl, by decide⟩

/-- Before the close: two entries wait, and one expected row has not reported. -/
def waiting : State :=
  { withEntries [{ door .opened with state := .pending .rollCall }] held with
    it.rollCall := .opened, it.window := some 3000, pending := [.rollCallWindowExpiry]
    pt := setNth held.pt 2 fun v => { v with expected := true } }

theorem witness_keysStayDistinctAndNoGrantBeforeClose :
    (∃ s t : State, KeysDistinct s ∧ NoGrantBeforeClose s ∧ step s = .next t ∧ s.it.rollCall = .opened ∧ s.it.entries ≠ []) ∧
    (∃ s t : State, AwaitingFits s ∧ PlacesTotal s ∧ step s = .next t ∧ s.placesOwed = 1) ∧
    (∃ s t : State, AwaitingFits s ∧ PlacesTotal s ∧ PlacesOthers s ∧ step s = .next t ∧ t.cfg = s.cfg ∧ s.placesOwedOthers = 1) ∧
    (∃ s t : State, AwaitingFits s ∧ PlacesTotal s ∧ PlacesOthers s ∧ OwnersListed s ∧ step s = .next t ∧ s.it.entries ≠ []) :=
  ⟨⟨waiting, after .rollCallWindowExpiry (waiting.withPending []), (by unfold KeysDistinct; decide),
      (by unfold NoGrantBeforeClose; decide), rfl, by decide, by decide⟩,
    ⟨waiting, after .rollCallWindowExpiry (waiting.withPending []), (by unfold AwaitingFits; decide),
      (by unfold PlacesTotal; decide), rfl, by decide⟩,
    ⟨waiting, after .rollCallWindowExpiry (waiting.withPending []), (by unfold AwaitingFits; decide),
      (by unfold PlacesTotal; decide), (by unfold PlacesOthers; decide), rfl, rfl, by decide⟩,
    ⟨waiting, after .rollCallWindowExpiry (waiting.withPending []), (by unfold AwaitingFits; decide),
      (by unfold PlacesTotal; decide), (by unfold PlacesOthers; decide), (by unfold OwnersListed; decide), rfl, by decide⟩⟩

theorem witness_holdAndSupplyTimersFitTheirStates : ∃ s t : State, HoldTimersFit s ∧ SupplyFits s ∧ step s = .next t ∧ s.shc.creep = true :=
  let s : State := { held with shc.creep := true, shc.creepTimer := some 1300, pending := [.creepTimerExpiry] }
  ⟨s, after .creepTimerExpiry (s.withPending []), by unfold HoldTimersFit; decide, by unfold SupplyFits; decide, rfl, rfl⟩

theorem witness_zoneRecordsFitTheirStates : ∃ s t : State, ZonesFit s ∧ step s = .next t ∧ s.lu.front.state = .lowering :=
  let s : State := { held with lu.front := zoneIn .lowering 70 (some 7000), pending := [.loweringTimerExpiry .front] }
  ⟨s, after (.loweringTimerExpiry .front) (s.withPending []), by unfold ZonesFit ZoneFits; decide, rfl, rfl⟩

theorem witness_linkQueuesStayBounded : ∃ s t : State, LinksBounded s ∧ step s = .next t ∧ s.chassis.rx.length = 2 :=
  let f : BusFrame := ⟨identity 16 60, [5, 1, 0, 0, 0, 0, 0, 0]⟩
  let s : State := { held with chassis.rx := [⟨.request, 60, f.data⟩, ⟨.request, 60, f.data⟩], pending := [.receiveFrame .chassis f] }
  ⟨s, after (.receiveFrame .chassis f) (s.withPending []), by unfold LinksBounded LinkRec.Bounded; decide, rfl, rfl⟩

theorem witness_speedStateAndLeasesFollow : ∃ s t : State, SpeedFollows s ∧ LeasesFit s ∧ step s = .next t ∧ s.pending ≠ [] :=
  let s : State := held.withPending [.staleExpiry]
  ⟨s, after .staleExpiry (s.withPending []), by unfold SpeedFollows; decide, by unfold LeasesFit; decide, rfl, by decide⟩

theorem witness_redLatchDoorFlagAndLineFollow :
    (∃ s t : State, RedLatchHolds s ∧ DoorFlagFits s ∧ LineFollowsRecord s ∧ step s = .next t ∧ s.rr.doorAtSpeed = true) ∧
    (∃ s t : State, InputsSignalled s ∧ step s = .next t ∧ t.rr.due ≠ []) :=
  let u : State := { withEntries [door .opened] (moving 200 held) with rr.doorAtSpeed := true, rr.redLatch := true }
  let v : State := (published held).withPending [.staleExpiry]
  ⟨⟨(published u).withPending [.restraintRecompute], after .restraintRecompute (published u), (by unfold RedLatchHolds; decide),
      (by unfold DoorFlagFits; decide), published_lineFollows u, rfl, rfl⟩,
    ⟨v, after .staleExpiry (published held), (by unfold InputsSignalled; decide), rfl, by decide⟩⟩

theorem witness_divisionRoundsHalvesAwayFromZero : ∃ (n : Int) (d : Nat), 0 < d ∧ 2 * (n - rdiv n d * d).natAbs = d :=
  ⟨-5, 2, by decide, by decide⟩

/-- The default base damping at each breakpoint speed, and on either side of one. -/
theorem test_readTable_breakpoints :
    [0, 99, 100, 101, 199, 200, 201, 400, 600, 799, 800, 801].map (readTable (jointBreakpoints.zip delivered.baseDamping)) =
      [200, 299, 300, 302, 449, 450, 451, 600, 750, 850, 850, 850] := by decide

/-- The default tag gain at each breakpoint speed, and on either side of each. -/
theorem test_readTable_gain :
    [0, 1, 149, 150, 151, 299, 300, 301, 399, 400, 401].map (readTable (gainBreakpoints.zip delivered.tagGain)) =
      [300, 300, 300, 300, 299, 151, 150, 148, 1, 0, 0] := by decide

/-- R53: the checks of an ASSERT at the ends of each field's range. -/
theorem test_checkFields :
    let f : EntryFields := { kind := 1, tag := 6, zone := 3, effects := none, depth := none, opening := 3 }
    [f, { f with tag := 7 }, { f with zone := 4 }, { f with opening := 4 }, { f with kind := 0 }, { f with kind := 6 },
        { f with kind := 2 }, { f with opening := 0 }, { f with depth := some 30 }].map (checkFields .doorNode) =
      [none, some .badField, some .badField, some .badField, some .badField, some .badField, some .role, some .badField,
        some .badField] := by decide

/-- R30: the door node takes the 22nd place and not the 23rd; the driver console takes the 23rd and the 24th. -/
theorem test_hasPlace :
    [21, 22, 23, 24].map (fun n => let s := withEntries (kneels.take n) held
      (s.hasPlace 5, s.hasPlace 8)) = [(true, true), (false, true), (false, true), (false, false)] ∧
      held.pt.length = 16 ∧ held.cfg.pt.length = 16 := by decide

/-- R196: the first parameter a staged value makes invalid, at the ends of two ranges. -/
theorem test_firstInvalid :
    [(4097, 600), (4097, 599), (4097, 950), (4097, 951), (15489, 175), (15489, 176)].map
      (fun v => ({ held with store.staging := [v] } : State).firstInvalid) =
      [none, some 4097, none, some 4097, none, some 15489] := by decide +kernel

/-- A context that stands when its participant's lease runs out. -/
theorem witness_leaseExpiryOrphans_report : ∃ (s : State) (n : Nat) (row : PtCfg) (d : Nat) (c : ReportCtx),
    s.service = .inService ∧ s.cfg.row n = some row ∧ (s.vol n).presence = .present ∧ (s.vol n).deadline = some d ∧
      (s.vol n).report = some c ∧ (s.link row.link).replies.length < 8 :=
  ⟨{ reporting 2 with pt := setNth (reporting 2).pt 5 fun v => { v with presence := .present, deadline := some 1200 } }, 5, rowAt 5,
    1200, newReport 2 900 7 2, by decide⟩

/-- A report that completes with one creation and no place for it, in a table of 22 entries of the others. -/
theorem witness_reportIsStagedAndCompletes_noPlace :
    ∃ (s : State) (l : Link) (q : Request) (rest : List RxFrame) (n : Nat) (row : PtCfg) (c : ReportCtx),
      Taken s l q rest n row ∧ q.code = reqReportEntry ∧ (s.vol n).report = some c ∧ c.expected ≤ c.received + 1 ∧
        KeysDistinct s ∧ c.staged = [] ∧ checkFields row.role q.fields = none ∧ s.findEntry n q.fields.tag = none ∧
        s.hasPlace n = false :=
  ⟨asked .body 23 [8, 1, 0, 1, 0, 0, 0, 3] (withEntries (kneels.take 22) (reporting 1)), .body,
    requestOf 23 [8, 1, 0, 1, 0, 0, 0, 3], [], 5, rowAt 5, newReport 1 900 7 2, by decide, by decide, by decide, by decide,
    by unfold KeysDistinct; decide, by decide, by decide, by decide, by decide⟩

/-- A CONFIG_COMMIT of the service tool with each outcome its clauses tell apart, at their boundaries: without standstill,
without an ESTABLISHED hold, group B without LEVEL_FREEZE and with it, group A under the lock, and a first invalid
parameter. -/
theorem witness_commitAppliesAllOrNothing_clauses :
    let asks := fun (s : State) => asked .chassis 60 [17, 1] s
    let taken := fun (s : State) => decide (Taken s .chassis (requestOf 60 [17, 1]) [] 2 (rowAt 2))
    let groupB := { held with store.staging := [(8194, 240)] }
    let groupA := { held with store.staging := [(4097, 600)], cfg.lock := true }
    [asks { held with motion.speedState := .slow }, asks { held with shc.state := .holdFault }, asks groupB,
        asks (withEntries [serviceEntry] groupB), asks groupA, asks { held with store.staging := [(4097, 599)] }].map
        (fun s => (taken s, codeOn (after (.configCommit .chassis) s) .chassis)) =
      [(true, some (.refused .notStandstill)), (true, some (.refused .notStandstill)), (true, some (.refused .locked)),
        (true, some .done), (true, some (.refused .locked)), (true, some (.refused .invalid))] := by decide +kernel

theorem witness_requestsWaitOrAreRefused :
    (∃ (s : State) (l : Link) (p : Instr × (Request → Bool)), p ∈ serving l ∧ s.canTake l = false) ∧
    (∃ (s : State) (l : Link) (q : Request) (rest : List RxFrame) (p : Instr × (Request → Bool)), p ∈ serving l ∧
      s.service = .inService ∧ s.canTake l = true ∧ s.oldestRequest l = some (q, rest) ∧ s.participant l q.source = none ∧
      p.2 q = true) ∧
    (∃ (s : State) (l : Link) (q : Request) (rest : List RxFrame) (n : Nat) (row : PtCfg), Taken s l q rest n row ∧
      q.code = reqSetRideLevel ∧ row.role ≠ .driverConsole ∧ row.role ≠ .serviceTool) :=
  ⟨⟨{ held with restart := some ⟨1100, false⟩ }, .body, (.presence .body, Request.is reqPresence), by simp [serving], by decide⟩,
    ⟨asked .body 99 [10, 1] held, .body, requestOf 99 [10, 1], [], (.presence .body, Request.is reqPresence), by simp [serving],
      by decide⟩,
    ⟨asked .body 23 [11, 1, 1] held, .body, requestOf 23 [11, 1, 1], [], 5, rowAt 5, by decide⟩⟩

end Sys2Proof.Tests
end

/-! SUPPORT. A request that is answered and does nothing more: what it leaves on the links, in the participant table and
everywhere else (R23, R49, R71). -/
namespace Sys2Proof.Machine
open Sys2Proof.Safety

/-! ## The links and the participant table after each step of the taking -/

@[simp] theorem fillAll_link (s : State) (l : Link) : (fillAll s).link l = (s.link l).fill := s.onBoth_link LinkRec.fill l

@[simp] theorem answer_link_self (l : Link) (r : Reply) (s : State) : (answer l r s).link l = (s.link l).placeReply r :=
  s.onLink_link_self l _

theorem answer_link_ne {l m : Link} (r : Reply) (s : State) (h : m ≠ l) : (answer l r s).link m = s.link m :=
  s.onLink_link_ne _ h

@[simp] theorem hear_link (n lease : Nat) (s : State) (l : Link) : (hear n lease s).link l = s.link l := by cases l <;> rfl

@[simp] theorem onLink_pt (s : State) (l : Link) (f : LinkRec → LinkRec) : (s.onLink l f).pt = s.pt :=
  onLink_frame s l f .pt (by decide)

@[simp] theorem onLink_now (s : State) (l : Link) (f : LinkRec → LinkRec) : (s.onLink l f).now = s.now :=
  onLink_frame s l f .now (by decide)

@[simp] theorem fillAll_pt (s : State) : (fillAll s).pt = s.pt := fillAll_frame s .pt (by decide)

@[simp] theorem answer_pt (l : Link) (r : Reply) (s : State) : (answer l r s).pt = s.pt := answer_frame l r s .pt (by decide)

theorem hear_pt (n lease : Nat) (s : State) :
    (hear n lease s).pt = setNth s.pt n fun v => { v with presence := .present, deadline := some (s.now + lease) } := rfl

/-! ## A request whose rule only answers -/

/-- The request's buffer is freed, its participant is heard, and one reply is placed (R23, R49). -/
def heardAndAnswered (l : Link) (rest : List RxFrame) (n : Nat) (row : PtCfg) (r : Reply) (s : State) : State :=
  fillAll (answer l r (hear n row.lease (s.onLink l fun k => { k with rx := rest })))

theorem serve_heardAndAnswered {s : State} {l : Link} {q : Request} {rest : List RxFrame} {n : Nat} {row : PtCfg}
    {mine : Request → Bool} {act : Nat → PtCfg → Request → State → State} {r : Reply} (t : Taken s l q rest n row)
    (m : mine q = true) (h : ∀ u, act n row q u = answer l r u) :
    serve l mine act s = heardAndAnswered l rest n row r s := by
  rw [serve_taken act t m, h, heardAndAnswered]

variable (l : Link) (rest : List RxFrame) (n : Nat) (row : PtCfg) (r : Reply) (s : State)

theorem heardAndAnswered_heardOnly : HeardOnly s (heardAndAnswered l rest n row r s) n row := by
  simp [HeardOnly, heardAndAnswered, hear_pt]

theorem heardAndAnswered_frame : SameOutside [.pt, .links] s (heardAndAnswered l rest n row r s) :=
  have freed := onLink_frame s l fun k => { k with rx := rest }
  have heard := (hear_frame n row.lease _).comp freed (rs := [.pt, .links]) (by decide) (by decide)
  have replied := (answer_frame l r _).comp heard (rs := [.pt, .links]) (by decide) (by decide)
  (fillAll_frame _).comp replied (by decide) (by decide)

theorem heardAndAnswered_answered : Answered s (heardAndAnswered l rest n row r s) l rest [] r := by
  constructor
  · simp [heardAndAnswered, placed]
  · intro m hm
    simp [heardAndAnswered, placed, answer_link_ne _ _ hm, State.onLink_link_ne s _ hm]

end Sys2Proof.Machine

namespace Sys2Proof.Proofs
open Sys2Proof Sys2Proof.Machine Sys2Proof.Safety

/-- A PRESENCE taken is heard and answered DONE (R71). -/
theorem exec_presence_taken {s : State} {l : Link} {q : Request} {rest : List RxFrame} {n : Nat} {row : PtCfg}
    (t : Taken s l q rest n row) (c : q.code = reqPresence) :
    exec (.presence l) s = .next (heardAndAnswered l rest n row (q.reply .done) s) := by
  have arm : exec (.presence l) s = execPresence l s := rfl
  have mine : Request.is reqPresence q = true := by simp [Request.is, c]
  have ⟨inService, _⟩ := t
  rw [arm, execPresence, whenInService_next _ _ inService, serve_heardAndAnswered t mine fun _ => rfl]

/-- Settles O49: the request's own rule is the reply alone, so the taking accounts for every change; the reply's last-frame
mark, left open by the statement, is clear. -/
theorem presenceOnlyRenewsTheLease : Obligations.PresenceOnlyRenewsTheLease := by
  unfold Obligations.PresenceOnlyRenewsTheLease
  intro s l q rest n row taken code
  have frame := heardAndAnswered_frame l rest n row (q.reply .done) s
  exact ⟨_, exec_presence_taken taken code, heardAndAnswered_heardOnly l rest n row _ s, frame .it (by decide), frame,
    false, by simp, heardAndAnswered_answered l rest n row (q.reply .done) s⟩

end Sys2Proof.Proofs

/-! SUPPORT. A table read by interpolation (R161): what its reading is at, between and beyond breakpoints. -/
namespace Sys2Proof.Machine

@[simp] theorem rdiv_zero (d : Nat) : rdiv 0 d = 0 := by
  have rounded : d / (2 * d) = 0 := Nat.div_eq_zero_iff.mpr (by omega)
  simp [rdiv, rounded]

variable {v a b : Nat} {x y : Int} {passed rest : List (Nat × Int)}

theorem tableFrom_below (h : v < b) :
    tableFrom a x ((b, y) :: rest) v = x + rdiv (((v : Int) - a) * (y - x)) (b - a) := if_pos h

theorem tableFrom_passed (h : b ≤ v) : tableFrom a x ((b, y) :: rest) v = tableFrom b y rest v := if_neg (by omega)

/-- Breakpoints at or below the speed are passed one by one; the reading goes by the last of them. -/
theorem tableFrom_append (h : ∀ p ∈ passed, p.1 ≤ v) (ha : a ≤ v) (v0 : Nat) (y0 : Int) :
    tableFrom v0 y0 (passed ++ (a, x) :: rest) v = tableFrom a x rest v := by
  induction passed generalizing v0 y0 with
  | nil => exact tableFrom_passed ha
  | cons p passed ih =>
    obtain ⟨hp, later⟩ := List.forall_mem_cons.mp h
    exact (tableFrom_passed hp).trans (ih later p.1 p.2)

theorem readTable_append (h : ∀ p ∈ passed, p.1 ≤ a) (ha : a ≤ v) :
    readTable (passed ++ (a, x) :: rest) v = tableFrom a x rest v := by
  cases passed with
  | nil => rfl
  | cons p passed => exact tableFrom_append (fun q m => Nat.le_trans (h q (.tail p m)) ha) ha p.1 p.2

theorem readTable_between (h : ∀ p ∈ passed, p.1 ≤ a) (ha : a ≤ v) (hb : v < b) :
    readTable (passed ++ (a, x) :: (b, y) :: rest) v = x + rdiv (((v : Int) - a) * (y - x)) (b - a) :=
  (readTable_append h ha).trans (tableFrom_below hb)

/-- At a breakpoint the term is 0. -/
theorem readTable_at (h : ∀ p ∈ passed, p.1 ≤ a) (hb : a < b) :
    readTable (passed ++ (a, x) :: (b, y) :: rest) a = x := by simp [readTable_between h (Nat.le_refl a) hb]

theorem readTable_beyond (h : ∀ p ∈ passed, p.1 ≤ a) (ha : a ≤ v) : readTable (passed ++ [(a, x)]) v = x :=
  readTable_append h ha

end Sys2Proof.Machine

/-! SUPPORT. An articulation period stage by stage: which stage decides the joint damping record and the tag gain, and that
the later ones keep them (R160, R162, R168). -/
namespace Sys2Proof.Machine
open Sys2Proof.Safety

/-! ## The stages before the tag's keep the tables and the motion -/

@[simp] theorem auTake_cfg (s : State) : (auTake s).cfg = s.cfg := auTake_frame s .cfg (by decide)
@[simp] theorem auTake_motion (s : State) : (auTake s).motion = s.motion := auTake_frame s .motion (by decide)
@[simp] theorem jointStage_cfg (s : State) : (jointStage s).cfg = s.cfg := rfl
@[simp] theorem jointStage_motion (s : State) : (jointStage s).motion = s.motion := rfl
@[simp] theorem tagSend_au (s : State) : (tagSend s).au = s.au := rfl
@[simp] theorem articulationPeriod_au (s : State) : (articulationPeriod s).au = (tagStage (auTake (jointStage s))).au := by
  simp [articulationPeriod]

/-! ## The joint damping record -/

/-- The joint damping record (9.1) is the same in two records of the articulation unit. -/
structure AuRec.JointKept (a b : AuRec) : Prop where
  known : b.known = a.known
  reverse : b.reverse = a.reverse
  baseDamping : b.baseDamping = a.baseDamping
  jointLimit : b.jointLimit = a.jointLimit
  lastForward : b.lastForward = a.lastForward
  dpOut : b.dpOut = a.dpOut
  dnOut : b.dnOut = a.dnOut
  foldLimit : b.foldLimit = a.foldLimit
  torque : b.torque = a.torque

theorem AuRec.JointKept.refl (a : AuRec) : a.JointKept a := ⟨rfl, rfl, rfl, rfl, rfl, rfl, rfl, rfl, rfl⟩

theorem AuRec.JointKept.trans {a b c : AuRec} (h : a.JointKept b) (g : b.JointKept c) : a.JointKept c :=
  ⟨g.known.trans h.known, g.reverse.trans h.reverse, g.baseDamping.trans h.baseDamping, g.jointLimit.trans h.jointLimit,
    g.lastForward.trans h.lastForward, g.dpOut.trans h.dpOut, g.dnOut.trans h.dnOut, g.foldLimit.trans h.foldLimit,
    g.torque.trans h.torque⟩

theorem AuRec.JointKept.ite {a b c : AuRec} {p : Prop} [Decidable p] (h : a.JointKept b) (g : a.JointKept c) :
    a.JointKept (if p then b else c) := by
  split
  · exact h
  · exact g

theorem AuRec.seed_jointKept (a : AuRec) (t : Option Int) : a.JointKept (a.seed t) :=
  ⟨rfl, rfl, rfl, rfl, rfl, rfl, rfl, rfl, rfl⟩

theorem AuRec.deviationTest_jointKept (a : AuRec) (t : Option Int) : a.JointKept (a.deviationTest t) :=
  ⟨rfl, rfl, rfl, rfl, rfl, rfl, rfl, rfl, rfl⟩

theorem AuRec.steer_jointKept (a : AuRec) (gain j : Int) : a.JointKept (a.steer gain j) :=
  ⟨rfl, rfl, rfl, rfl, rfl, rfl, rfl, rfl, rfl⟩

theorem AuRec.step_jointKept (a : AuRec) : a.JointKept a.step := ⟨rfl, rfl, rfl, rfl, rfl, rfl, rfl, rfl, rfl⟩

theorem AuRec.toSteering_jointKept (a : AuRec) (gain j : Int) : a.JointKept (a.toSteering gain j) :=
  ⟨rfl, rfl, rfl, rfl, rfl, rfl, rfl, rfl, rfl⟩

theorem AuRec.centredTest_jointKept (a : AuRec) (t : Option Int) : a.JointKept (a.centredTest t) := by
  unfold AuRec.centredTest
  split
  · exact .ite ⟨rfl, rfl, rfl, rfl, rfl, rfl, rfl, rfl, rfl⟩ (.refl a)
  · exact .refl a

theorem AuRec.tagStep_jointKept (a : AuRec) (seeding : Bool) (gain j : Int) (t : Option Int) :
    a.JointKept (a.tagStep seeding gain j t) := by
  unfold AuRec.tagStep
  split
  · exact (a.steer_jointKept gain j).trans (AuRec.step_jointKept _)
  · exact .ite (a.toSteering_jointKept gain j)
      (.ite (.refl a) (a.step_jointKept.trans (AuRec.centredTest_jointKept _ t)))
  · exact .ite ⟨rfl, rfl, rfl, rfl, rfl, rfl, rfl, rfl, rfl⟩ (.refl a)
  · exact .refl a

theorem auTake_jointKept (s : State) : s.au.JointKept (auTake s).au := by
  unfold auTake
  dsimp only
  split <;> exact ⟨rfl, rfl, rfl, rfl, rfl, rfl, rfl, rfl, rfl⟩

theorem tagFault_jointKept (c : FaultCause) (s : State) : s.au.JointKept (tagFault c s).au :=
  ⟨rfl, rfl, rfl, rfl, rfl, rfl, rfl, rfl, rfl⟩

/-! ## The tag's stage -/

/-- The record of a period after its seeding and its deviation test (R169, R172). -/
def State.tagTested (s : State) : AuRec :=
  let a := if !s.au.seeded then s.au.seed s.chans.t.validFigure else s.au
  if a.tag.tested then a.deviationTest s.chans.t.validFigure else a

/-- The tag gain that the table in force gives at the speed (R161, R168). -/
def State.tagGain (s : State) : Int := readTable (gainBreakpoints.zip s.cfg.tagGain) s.motion.speed

/-- A period's tag stage takes the record into FAULT, or steps it with the gain of the table in force. -/
theorem tagStage_cases (s : State) :
    tagStage s = tagFault .deviation { s with au := s.tagTested } ∨
    tagStage s = { s with au := s.tagTested.tagStep (!s.au.seeded) s.tagGain (s.chans.j.usable.getD 0) s.chans.t.validFigure } := by
  by_cases faults : (s.tagTested.tag.tested && decide (500 ≤ s.tagTested.deviation)) = true
  · exact .inl (if_pos faults)
  · exact .inr (if_neg faults)

theorem tagTested_jointKept (s : State) : s.au.JointKept s.tagTested :=
  have seeded : s.au.JointKept (if !s.au.seeded then s.au.seed s.chans.t.validFigure else s.au) :=
    .ite (s.au.seed_jointKept _) (.refl _)
  .ite (seeded.trans (AuRec.deviationTest_jointKept _ _)) seeded

theorem tagStage_jointKept (s : State) : s.au.JointKept (tagStage s).au := by
  obtain h | h := tagStage_cases s
  · exact h ▸ (tagTested_jointKept s).trans (tagFault_jointKept .deviation { s with au := s.tagTested })
  · exact h ▸ (tagTested_jointKept s).trans (AuRec.tagStep_jointKept _ _ _ _ _)

/-- The test for the centred tag takes no record to STEERING (R170). -/
theorem AuRec.centredTest_tag_ne {a : AuRec} (t : Option Int) (h : a.tag ≠ .steering) : (a.centredTest t).tag ≠ .steering := by
  unfold AuRec.centredTest
  split
  · split
    · simp
    · exact h
  · exact h

/-- A record that steers after its step took the gain at it (R168). -/
theorem AuRec.tagStep_gain {a : AuRec} {seeding : Bool} {gain j : Int} {t : Option Int}
    (h : (a.tagStep seeding gain j t).tag = .steering) : (a.tagStep seeding gain j t).gain = gain := by
  unfold AuRec.tagStep at h ⊢
  cases tag : a.tag with
  | steering => rfl
  | centring =>
    by_cases free : a.causes.any = false
    · simp [free, AuRec.toSteering, AuRec.steer]
    · have stays : (a.step.centredTest t).tag ≠ .steering := AuRec.centredTest_tag_ne t (by simp [AuRec.step, tag])
      cases seeding <;> simp [tag, free, stays] at h
  | centred =>
    by_cases free : a.causes.any = false
    · simp [free, AuRec.toSteering, AuRec.steer]
    · simp [tag, free] at h
  | fault => simp [tag] at h

theorem tagStage_gain {s : State} (h : (tagStage s).au.tag = .steering) : (tagStage s).au.gain = s.tagGain := by
  obtain fault | steps := tagStage_cases s
  · rw [fault] at h
    cases h
  · rw [steps] at h ⊢
    exact AuRec.tagStep_gain h

/-! ## The whole period -/

/-- The state that an expiry of the articulation timer due at `d` hands to the period (R160). -/
def State.articulationDue (s : State) (d : Nat) : State :=
  { s.reach d with periods.articulation := some (d + 20) }

theorem jointStage_readsTables {s : State} (fresh : s.motion.freshness = .fresh) (forward : s.motion.gear ≠ .reverse) :
    (jointStage s).au.baseDamping = readTable (jointBreakpoints.zip s.cfg.baseDamping) s.motion.speed ∧
      (jointStage s).au.jointLimit = readTable (jointBreakpoints.zip s.cfg.jointLimit) s.motion.speed := by
  have keeps : ∀ (a : AuRec) (j : Option Int),
      (a.damp j).baseDamping = a.baseDamping ∧ (a.damp j).jointLimit = a.jointLimit := by
    intro a j; cases j <;> exact ⟨rfl, rfl⟩
  simp [jointStage, keeps, State.jointFigures, baseDamping, jointLimit, fresh, forward]

theorem articulationPeriod_jointKept (s : State) : (jointStage s).au.JointKept (articulationPeriod s).au := by
  rw [articulationPeriod_au]
  exact (auTake_jointKept _).trans (tagStage_jointKept _)

theorem articulationPeriod_gain {s : State} (h : (articulationPeriod s).au.tag = .steering) :
    (articulationPeriod s).au.gain = s.tagGain := by
  rw [articulationPeriod_au] at h ⊢
  simpa [State.tagGain] using tagStage_gain h

end Sys2Proof.Machine

/-! SUPPORT. What a CONFIG_COMMIT can change (R196, R197). -/
namespace Sys2Proof.Safety
open Sys2Proof.Machine

/-- The parts the rule of a CONFIG_COMMIT itself may change. -/
theorem applyCommit_frame (s : State) : SameOutside [.cfg, .store, .chans, .pt, .rr] s (applyCommit s) := by
  refine (rrSignal_frame _).comp (ps := [.cfg, .store, .chans, .pt]) ?_ (by decide) (by decide)
  intro p hp; cases p <;> simp_all [Part.same]

theorem store_frame (s : State) (r : StoreRec) : SameOutside [.store] s { s with store := r } := by
  intro p hp; cases p <;> simp_all [Part.same]

theorem configCommit_frame (l : Link) (q : Request) (s : State) :
    SameOutside [.pt, .cfg, .store, .chans, .rr, .links] s (configCommit l q s) := by
  refine .ite ((refuse_frame l q _ s).mono (by decide)) (.ite ((refuse_frame l q _ s).mono (by decide)) ?_)
  split
  · exact (answer_frame l _ _).comp (store_frame s _) (by decide) (by decide)
  · exact (answer_frame l _ _).comp (applyCommit_frame s) (by decide) (by decide)

theorem fromTool_frame {ps : List Part} {l : Link} {act : Request → State → State} (h : ∀ q s, SameOutside ps s (act q s))
    (hl : .links ∈ ps) (n : Nat) (row : PtCfg) (q : Request) (s : State) : SameOutside ps s (fromTool l act n row q s) :=
  .ite (h q s) ((refuse_frame l q _ s).mono (by simpa using hl))

end Sys2Proof.Safety

namespace Sys2Proof.Proofs
open Sys2Proof Sys2Proof.Machine Sys2Proof.Safety

theorem exec_configCommit_frame (l : Link) {s : State} (h : s.service = .inService) :
    ∃ t, exec (.configCommit l) s = .next t ∧ SameOutside (footprint (.configCommit l)) s t := by
  have arm : exec (.configCommit l) s = execConfigCommit l s := rfl
  rw [arm, execConfigCommit, whenInService_next _ _ h]
  exact ⟨_, rfl, serve_frame (fromTool_frame (configCommit_frame l) (by decide)) (by decide) (by decide) l _ s⟩

theorem exec_articulationPeriod_due {s : State} {d : Nat} (h : s.service = .inService) (due : s.periods.articulation = some d) :
    exec .articulationPeriod s = .next (articulationPeriod (s.articulationDue d)) := by
  have arm : exec .articulationPeriod s = execArticulationPeriod s := rfl
  rw [arm, execArticulationPeriod, whenInService_next _ _ h, due]
  rfl

/-- Settles O16. The readings are those of any table; the commit is its frame; and of a period's stages the joint's alone
reads the damping and limit tables, and the tag's alone gives a record that steers its gain. -/
theorem tableReadsByInterpolation : Obligations.TableReadsByInterpolation := by
  unfold Obligations.TableReadsByInterpolation
  refine ⟨?jointTables, ?gainTable, ?commit, ?period⟩
  case jointTables =>
    intro y0 y1 y2 y3 y4 y5 v
    refine ⟨?_, ?_, ?_, ?_, ?_, fun b => ?_, fun a b => ?_, fun a b => ?_, fun a b => ?_, fun a b => ?_, fun a => ?_⟩
    · rintro rfl; exact readTable_at (passed := []) (by simp) (by decide)
    · rintro rfl; exact readTable_at (passed := [(0, y0)]) (by simp) (by decide)
    · rintro rfl; exact readTable_at (passed := [(0, y0), (100, y1)]) (by simp) (by decide)
    · rintro rfl; exact readTable_at (passed := [(0, y0), (100, y1), (200, y2)]) (by simp) (by decide)
    · rintro rfl; exact readTable_at (passed := [(0, y0), (100, y1), (200, y2), (400, y3)]) (by simp) (by decide)
    · exact readTable_between (passed := []) (by simp) v.zero_le b
    · exact readTable_between (passed := [(0, y0)]) (by simp) a b
    · exact readTable_between (passed := [(0, y0), (100, y1)]) (by simp) a b
    · exact readTable_between (passed := [(0, y0), (100, y1), (200, y2)]) (by simp) a b
    · exact readTable_between (passed := [(0, y0), (100, y1), (200, y2), (400, y3)]) (by simp) a b
    · exact readTable_beyond (passed := [(0, y0), (100, y1), (200, y2), (400, y3), (600, y4)]) (by simp) a
  case gainTable =>
    intro y0 y1 y2 y3 v
    refine ⟨?_, ?_, ?_, fun b => ?_, fun a b => ?_, fun a b => ?_, fun a => ?_⟩
    · rintro rfl; exact readTable_at (passed := []) (by simp) (by decide)
    · rintro rfl; exact readTable_at (passed := [(0, y0)]) (by simp) (by decide)
    · rintro rfl; exact readTable_at (passed := [(0, y0), (150, y1)]) (by simp) (by decide)
    · exact readTable_between (passed := []) (by simp) v.zero_le b
    · exact readTable_between (passed := [(0, y0)]) (by simp) a b
    · exact readTable_between (passed := [(0, y0), (150, y1)]) (by simp) a b
    · exact readTable_beyond (passed := [(0, y0), (150, y1), (300, y2)]) (by simp) a
  case commit =>
    intro s l q rest n row ⟨inService, _⟩ _
    obtain ⟨t, next, frame⟩ := exec_configCommit_frame l inService
    exact ⟨t, next, frame .au (by simp [footprint]), frame .act (by simp [footprint])⟩
  case period =>
    intro s d inService due fresh forward
    have kept := articulationPeriod_jointKept (s.articulationDue d)
    have ⟨base, limit⟩ := jointStage_readsTables (s := s.articulationDue d) fresh forward
    exact ⟨_, exec_articulationPeriod_due inService due, kept.baseDamping.trans base, kept.jointLimit.trans limit,
      articulationPeriod_gain⟩

end Sys2Proof.Proofs
